-- ==== Sys2Proof/Word.lean ====
section
/-! DEFINITION. The value types of SRECENC: bytes, characters, the command word and its operands. -/

namespace Sys2Proof

/-- A byte of the input buffer (R9, R51). All values are unsigned (R9, R103). -/
abbrev Byte := BitVec 8

/-- A character of the output text: an 8-bit code (R57). -/
abbrev Character := BitVec 8

/-- A text: characters in the order the sink receives them (R30). -/
abbrev Text := List Character

/-- The command word `cmdw[5:0]` (R70). -/
abbrev CmdWord := BitVec 6

/-- `ADDR[15:0]` (R21). -/
abbrev Address := BitVec 16

end Sys2Proof
end

