-- ==== Sys2Proof/Config.lean ====
section
/-! DEFINITION. The build parameters of `00_scope.md` R7 and the free values of `93_implementation_defined.md` U15. -/

namespace Sys2Proof

/-- `HDR_TAG[0..4]`: exactly five bytes, "fixed by the document" (R7). -/
structure HdrTag where
  b0 : Byte
  b1 : Byte
  b2 : Byte
  b3 : Byte
  b4 : Byte
  deriving DecidableEq, Repr

/-- The tag as the payload of the header record (R132). -/
def HdrTag.bytes (t : HdrTag) : List Byte := [t.b0, t.b1, t.b2, t.b3, t.b4]

/-- The parameters "a model takes ... as arguments; none changes while the block runs" (R7). -/
structure Config where
  /-- `LEN_W`, the number of bits of `LEN`, `OFFSET`, `REMAINING` and every offset into `IN`. As it is a parameter, such values
  are numbers, and their width is checked where they enter the machine (log 5). -/
  lenW      : Nat
  /-- `HDR_TAG`, the payload of the header record. -/
  hdrTag    : HdrTag
  /-- `ASM_PREFIX`, the literal prefix of a listing line. -/
  asmPrefix : Text
  /-- `OUT_CAP`: no bound, or the most characters a text may have. -/
  outCap    : Option Nat
  deriving DecidableEq, Repr

/-- The OPEN tag bytes (R7, D9, U1), free within the rule's bound of 0x7F, which the seven bits carry (log 4). -/
opaque Config.freeTag : Nat → BitVec 7

/-- The OPEN listing prefix (R7, D10, U17), free within the rule's bound of 0x7F, which the seven bits carry (log 4). -/
opaque Config.freePrefix : List (BitVec 7)

/-- `in_addr` while `in_re = 0`: any value, of which the port shows `LEN_W` bits (U15, log 15). -/
opaque Config.freeInAddr : Nat → Nat

/-- `out_char` while `out_valid = 0`: any value (U15, log 15). -/
opaque Config.freeOutChar : Nat → Character

/-- `out_last` while `out_valid = 0`, outside `IDLE`: any value (U15, log 15). -/
opaque Config.freeOutLast : Nat → Bool

/-- This hardware's parameters: `LEN_W = 32`, `HDR_TAG` and `ASM_PREFIX` OPEN, the prefix without the newline, `OUT_CAP = none` (R7). -/
def Config.build : Config where
  lenW := 32
  hdrTag :=
    { b0 := (Config.freeTag 0).setWidth 8
      b1 := (Config.freeTag 1).setWidth 8
      b2 := (Config.freeTag 2).setWidth 8
      b3 := (Config.freeTag 3).setWidth 8
      b4 := (Config.freeTag 4).setWidth 8 }
  asmPrefix := (Config.freePrefix.filter (· != 0x0A#7)).map (·.setWidth 8)
  outCap := none

end Sys2Proof
end

