-- ==== Sys2Proof/Syntax.lean ====
section
/-! DEFINITION. The commands of SRECENC: one constructor per row of spec/opcode_table.json, and the ports a command is presented on. -/

namespace Sys2Proof

/-- A command as the host presents it with `start`: the ports `cmdw`, `addr`, `len` (R70, R185). -/
structure Command where
  cmdw : CmdWord
  addr : Address
  len  : Nat
  deriving DecidableEq, Repr

/-- The commands. `KIND` and `ADDR` of `SREC`, `ASM` and `OP3` are kept: they are latched though otherwise ignored (R75, R184). -/
inductive Instr where
  /-- `REC.S0 addr, len`, a Header record (R105). -/
  | recS0 (addr : Address) (len : Nat)
  /-- `REC.S1 addr, len`, a Data16 record (R106). -/
  | recS1 (addr : Address) (len : Nat)
  /-- `REC.S5 addr, len`, a Count16 record (R107). -/
  | recS5 (addr : Address) (len : Nat)
  /-- `REC.S9 addr, len`, a Terminator record (R108). -/
  | recS9 (addr : Address) (len : Nat)
  /-- `SREC len`, a whole S-Record document (R130). -/
  | srec (kind : BitVec 4) (addr : Address) (len : Nat)
  /-- `ASM len`, a whole listing (R160). -/
  | asm (kind : BitVec 4) (addr : Address) (len : Nat)
  /-- `REC.K2 addr, len`, an illegal record kind (R109). -/
  | recK2 (addr : Address) (len : Nat)
  /-- `REC.K3 addr, len`, an illegal record kind (R109). -/
  | recK3 (addr : Address) (len : Nat)
  /-- `REC.K4 addr, len`, an illegal record kind (R109). -/
  | recK4 (addr : Address) (len : Nat)
  /-- `REC.K6 addr, len`, an illegal record kind (R109). -/
  | recK6 (addr : Address) (len : Nat)
  /-- `REC.K7 addr, len`, an illegal record kind (R109). -/
  | recK7 (addr : Address) (len : Nat)
  /-- `REC.K8 addr, len`, an illegal record kind (R109). -/
  | recK8 (addr : Address) (len : Nat)
  /-- `REC.KA addr, len`, an illegal record kind (R109). -/
  | recKA (addr : Address) (len : Nat)
  /-- `REC.KB addr, len`, an illegal record kind (R109). -/
  | recKB (addr : Address) (len : Nat)
  /-- `REC.KC addr, len`, an illegal record kind (R109). -/
  | recKC (addr : Address) (len : Nat)
  /-- `REC.KD addr, len`, an illegal record kind (R109). -/
  | recKD (addr : Address) (len : Nat)
  /-- `REC.KE addr, len`, an illegal record kind (R109). -/
  | recKE (addr : Address) (len : Nat)
  /-- `REC.KF addr, len`, an illegal record kind (R109). -/
  | recKF (addr : Address) (len : Nat)
  /-- `OP3 len`, the reserved operation code (R197). -/
  | op3 (kind : BitVec 4) (addr : Address) (len : Nat)
  deriving DecidableEq, Repr

/-- Why a string of bytes is no command image; `Decode.lean` raises each. -/
inductive DecodeError where
  /-- Fewer bytes than a command image has (log 13). Safe. -/
  | truncated (have_ : Nat)
  /-- The first byte has a bit above the six of `cmdw` (R70, log 13). Safe. -/
  | notACommandWord (b : Byte)
  /-- The bytes of `LEN` hold a value that `LEN_W` bits do not (R70, log 13). Safe. -/
  | operandTooWide (len : Nat)
  deriving DecidableEq, Repr

end Sys2Proof
end

