-- ==== Sys2Proof/WellFormed.lean ====
section
/-! DEFINITION. Well-formed parameters and well-formed commands. -/

namespace Sys2Proof

/-- "each byte <= 0x7F" (R7). -/
def Config.tagWf (c : Config) : Bool := c.hdrTag.bytes.all (fun b => b.toNat ≤ 0x7F)

/-- "each character <= 0x7F" (R7). -/
def Config.prefixWf (c : Config) : Bool := c.asmPrefix.all (fun b => b.toNat ≤ 0x7F)

/-- "and none equal to 0x0A" (R7). -/
def Config.prefixNoNewline (c : Config) : Bool := c.asmPrefix.all (fun b => b != 0x0A#8)

/-- "`LEN_W >= 8`" (R7). -/
def Config.lenWWf (c : Config) : Bool := decide (8 ≤ c.lenW)

/-- The configuration well-formedness conditions of R7; "the datapath does not depend on them". -/
def Config.wf (c : Config) : Bool := c.tagWf && c.prefixWf && c.prefixNoNewline && c.lenWWf

/-- A value the port `len[LEN_W-1:0]` can carry (R70, R185). -/
def lenFits (lenW : Nat) (len : Nat) : Bool := decide (len < 2 ^ lenW)

/-- A command is well-formed where the port `len` can carry its `LEN`. The other fields are as wide as their ports, which
their types say, and every value of them is a legal operand or raises a fault the spec names (R74). -/
def Instr.wf (lenW : Nat) : Instr → Bool
  | .recS0 _ len => lenFits lenW len
  | .recS1 _ len => lenFits lenW len
  | .recS5 _ len => lenFits lenW len
  | .recS9 _ len => lenFits lenW len
  | .srec _ _ len => lenFits lenW len
  | .asm _ _ len => lenFits lenW len
  | .recK2 _ len => lenFits lenW len
  | .recK3 _ len => lenFits lenW len
  | .recK4 _ len => lenFits lenW len
  | .recK6 _ len => lenFits lenW len
  | .recK7 _ len => lenFits lenW len
  | .recK8 _ len => lenFits lenW len
  | .recKA _ len => lenFits lenW len
  | .recKB _ len => lenFits lenW len
  | .recKC _ len => lenFits lenW len
  | .recKD _ len => lenFits lenW len
  | .recKE _ len => lenFits lenW len
  | .recKF _ len => lenFits lenW len
  | .op3 _ _ len => lenFits lenW len

end Sys2Proof
end

