-- ==== Sys2Proof/Decode.lean ====
section
/-! DEFINITION. The command decoder and encoder (`30_encoding.md` R70 to R75, R86), and the byte image of a command (log 13). -/

namespace Sys2Proof

/-- `cmdw[5:4]`, the field `OP` (R70). -/
def Command.op (c : Command) : BitVec 2 := c.cmdw.extractLsb' 4 2

/-- `cmdw[3:0]`, the field `KIND` (R70). -/
def Command.kind (c : Command) : BitVec 4 := c.cmdw.extractLsb' 0 4

/-- A `REC` command by its `KIND` (R73, R74). -/
def decodeRecord (kind : BitVec 4) (addr : Address) (len : Nat) : Instr :=
  if kind = 0#4 then .recS0 addr len
  else if kind = 1#4 then .recS1 addr len
  else if kind = 2#4 then .recK2 addr len
  else if kind = 3#4 then .recK3 addr len
  else if kind = 4#4 then .recK4 addr len
  else if kind = 5#4 then .recS5 addr len
  else if kind = 6#4 then .recK6 addr len
  else if kind = 7#4 then .recK7 addr len
  else if kind = 8#4 then .recK8 addr len
  else if kind = 9#4 then .recS9 addr len
  else if kind = 10#4 then .recKA addr len
  else if kind = 11#4 then .recKB addr len
  else if kind = 12#4 then .recKC addr len
  else if kind = 13#4 then .recKD addr len
  else if kind = 14#4 then .recKE addr len
  else .recKF addr len

/-- The command on the ports: total, "every one of the 64 values of `cmdw` either names one of the six legal forms or
faults" (R72 to R74). -/
def decodeCommand (c : Command) : Instr :=
  if c.op = 0b00#2 then decodeRecord c.kind c.addr c.len
  else if c.op = 0b01#2 then .srec c.kind c.addr c.len
  else if c.op = 0b10#2 then .asm c.kind c.addr c.len
  else .op3 c.kind c.addr c.len

/-- The bytes of a `LEN_W`-bit value. -/
def lenBytes (lenW : Nat) : Nat := (lenW + 7) / 8

/-- The bytes of a command image: one of `cmdw`, two of `addr`, then those of `len` (log 13). -/
def imageLength (lenW : Nat) : Nat := 3 + lenBytes lenW

/-- A number from its bytes, low byte first. -/
def natOfBytes : List Byte → Nat
  | [] => 0
  | b :: bs => b.toNat + 256 * natOfBytes bs

/-- The low `k` bytes of a number, low byte first. -/
def bytesOfNat : Nat → Nat → List Byte
  | 0, _ => []
  | k + 1, n => BitVec.ofNat 8 n :: bytesOfNat k (n / 256)

/-- The ports' values from a command image: `cmdw` in the low six bits of the first byte, then `addr`, then `len`, each low
byte first (DESIGN CHOICE, log 13: the ports are parallel and the spec gives commands no bytes). -/
def Command.ofBytes (lenW : Nat) : List Byte → Except DecodeError (Command × List Byte)
  | c :: a0 :: a1 :: rest =>
    if lenBytes lenW ≤ rest.length then
      if c.toNat < 64 then
        if lenFits lenW (natOfBytes (rest.take (lenBytes lenW))) then
          .ok ({ cmdw := BitVec.ofNat 6 c.toNat
                 addr := BitVec.ofNat 16 (a0.toNat + 256 * a1.toNat)
                 len := natOfBytes (rest.take (lenBytes lenW)) }, rest.drop (lenBytes lenW))
        else .error (.operandTooWide (natOfBytes (rest.take (lenBytes lenW))))
      else .error (.notACommandWord c)
    else .error (.truncated (rest.length + 3))
  | bs => .error (.truncated bs.length)

/-- The decoder on bytes, for ports of `LEN_W` bits: the command and the rest of the bytes, or a refusal by name. -/
def decode (lenW : Nat) (bs : List Byte) : Except DecodeError (Instr × List Byte) :=
  match Command.ofBytes lenW bs with
  | .ok (c, rest) => .ok (decodeCommand c, rest)
  | .error e => .error e

/-- The field `OP` of a command (R72). -/
def Instr.op : Instr → BitVec 2
  | .recS0 _ _ => 0b00#2
  | .recS1 _ _ => 0b00#2
  | .recS5 _ _ => 0b00#2
  | .recS9 _ _ => 0b00#2
  | .srec _ _ _ => 0b01#2
  | .asm _ _ _ => 0b10#2
  | .recK2 _ _ => 0b00#2
  | .recK3 _ _ => 0b00#2
  | .recK4 _ _ => 0b00#2
  | .recK6 _ _ => 0b00#2
  | .recK7 _ _ => 0b00#2
  | .recK8 _ _ => 0b00#2
  | .recKA _ _ => 0b00#2
  | .recKB _ _ => 0b00#2
  | .recKC _ _ => 0b00#2
  | .recKD _ _ => 0b00#2
  | .recKE _ _ => 0b00#2
  | .recKF _ _ => 0b00#2
  | .op3 _ _ _ => 0b11#2

/-- The field `KIND` of a command (R73 to R75). -/
def Instr.kind : Instr → BitVec 4
  | .recS0 _ _ => 0#4
  | .recS1 _ _ => 1#4
  | .recS5 _ _ => 5#4
  | .recS9 _ _ => 9#4
  | .srec kind _ _ => kind
  | .asm kind _ _ => kind
  | .recK2 _ _ => 2#4
  | .recK3 _ _ => 3#4
  | .recK4 _ _ => 4#4
  | .recK6 _ _ => 6#4
  | .recK7 _ _ => 7#4
  | .recK8 _ _ => 8#4
  | .recKA _ _ => 10#4
  | .recKB _ _ => 11#4
  | .recKC _ _ => 12#4
  | .recKD _ _ => 13#4
  | .recKE _ _ => 14#4
  | .recKF _ _ => 15#4
  | .op3 kind _ _ => kind

/-- The operand `ADDR` of a command (R71). -/
def Instr.addr : Instr → Address
  | .recS0 addr _ => addr
  | .recS1 addr _ => addr
  | .recS5 addr _ => addr
  | .recS9 addr _ => addr
  | .srec _ addr _ => addr
  | .asm _ addr _ => addr
  | .recK2 addr _ => addr
  | .recK3 addr _ => addr
  | .recK4 addr _ => addr
  | .recK6 addr _ => addr
  | .recK7 addr _ => addr
  | .recK8 addr _ => addr
  | .recKA addr _ => addr
  | .recKB addr _ => addr
  | .recKC addr _ => addr
  | .recKD addr _ => addr
  | .recKE addr _ => addr
  | .recKF addr _ => addr
  | .op3 _ addr _ => addr

/-- The operand `LEN` of a command (R71). -/
def Instr.len : Instr → Nat
  | .recS0 _ len => len
  | .recS1 _ len => len
  | .recS5 _ len => len
  | .recS9 _ len => len
  | .srec _ _ len => len
  | .asm _ _ len => len
  | .recK2 _ len => len
  | .recK3 _ len => len
  | .recK4 _ len => len
  | .recK6 _ len => len
  | .recK7 _ len => len
  | .recK8 _ len => len
  | .recKA _ len => len
  | .recKB _ len => len
  | .recKC _ len => len
  | .recKD _ len => len
  | .recKE _ len => len
  | .recKF _ len => len
  | .op3 _ _ len => len

/-- The ports' values of a command: `cmdw = {OP, KIND}` (R70). -/
def Instr.command (i : Instr) : Command :=
  { cmdw := i.op ++ i.kind, addr := i.addr, len := i.len }

/-- The byte image of the ports' values (log 13). -/
def Command.toBytes (lenW : Nat) (c : Command) : List Byte :=
  [BitVec.ofNat 8 c.cmdw.toNat, BitVec.ofNat 8 c.addr.toNat, BitVec.ofNat 8 (c.addr.toNat / 256)] ++
    bytesOfNat (lenBytes lenW) c.len

/-- The encoder, for ports of `LEN_W` bits: the image of a command. -/
def encode (lenW : Nat) (i : Instr) : List Byte := i.command.toBytes lenW

/-- A row of spec/opcode_table.json: `match` and `mask` over the six bits of `cmdw` (R86). -/
structure OpcodeRow where
  mnemonic : String
  mask     : CmdWord
  pattern  : CmdWord
  deriving DecidableEq, Repr

/-- The nineteen rows of spec/opcode_table.json (R86). -/
def opcodeRows : List OpcodeRow :=
  [{ mnemonic := "REC.S0", mask := 0x3F#6, pattern := 0x00#6 },
   { mnemonic := "REC.S1", mask := 0x3F#6, pattern := 0x01#6 },
   { mnemonic := "REC.S5", mask := 0x3F#6, pattern := 0x05#6 },
   { mnemonic := "REC.S9", mask := 0x3F#6, pattern := 0x09#6 },
   { mnemonic := "SREC", mask := 0x30#6, pattern := 0x10#6 },
   { mnemonic := "ASM", mask := 0x30#6, pattern := 0x20#6 },
   { mnemonic := "REC.K2", mask := 0x3F#6, pattern := 0x02#6 },
   { mnemonic := "REC.K3", mask := 0x3F#6, pattern := 0x03#6 },
   { mnemonic := "REC.K4", mask := 0x3F#6, pattern := 0x04#6 },
   { mnemonic := "REC.K6", mask := 0x3F#6, pattern := 0x06#6 },
   { mnemonic := "REC.K7", mask := 0x3F#6, pattern := 0x07#6 },
   { mnemonic := "REC.K8", mask := 0x3F#6, pattern := 0x08#6 },
   { mnemonic := "REC.KA", mask := 0x3F#6, pattern := 0x0A#6 },
   { mnemonic := "REC.KB", mask := 0x3F#6, pattern := 0x0B#6 },
   { mnemonic := "REC.KC", mask := 0x3F#6, pattern := 0x0C#6 },
   { mnemonic := "REC.KD", mask := 0x3F#6, pattern := 0x0D#6 },
   { mnemonic := "REC.KE", mask := 0x3F#6, pattern := 0x0E#6 },
   { mnemonic := "REC.KF", mask := 0x3F#6, pattern := 0x0F#6 },
   { mnemonic := "OP3", mask := 0x30#6, pattern := 0x30#6 }]

/-- "`cmdw & mask = match`" (R86). -/
def OpcodeRow.matchesWord (r : OpcodeRow) (w : CmdWord) : Bool := w &&& r.mask == r.pattern

/-- The mnemonic of a command, as spec/opcode_table.json spells it (R84). -/
def Instr.mnemonic : Instr → String
  | .recS0 _ _ => "REC.S0"
  | .recS1 _ _ => "REC.S1"
  | .recS5 _ _ => "REC.S5"
  | .recS9 _ _ => "REC.S9"
  | .srec _ _ _ => "SREC"
  | .asm _ _ _ => "ASM"
  | .recK2 _ _ => "REC.K2"
  | .recK3 _ _ => "REC.K3"
  | .recK4 _ _ => "REC.K4"
  | .recK6 _ _ => "REC.K6"
  | .recK7 _ _ => "REC.K7"
  | .recK8 _ _ => "REC.K8"
  | .recKA _ _ => "REC.KA"
  | .recKB _ _ => "REC.KB"
  | .recKC _ _ => "REC.KC"
  | .recKD _ _ => "REC.KD"
  | .recKE _ _ => "REC.KE"
  | .recKF _ _ => "REC.KF"
  | .op3 _ _ _ => "OP3"

/-- The command image whose bits are `w`, numbered as the opcode table numbers them: `cmdw` is bits 5..0, `addr` bits
23..8, `len` the bits from 24 up; every bit from `nbits` up is 0. -/
def tableImage (lenW nbits w : Nat) : List Byte := bytesOfNat (imageLength lenW) (w % 2 ^ nbits)

/-- What the decoder reads from the opcode table's word `w` of `nbits` bits, for ports of `LEN_W` bits. -/
def decodeWord (lenW nbits w : Nat) : Option Instr :=
  match decode lenW (tableImage lenW nbits w) with
  | .ok (i, _) => some i
  | .error _ => none

/-- What this hardware's decoder reads from the opcode table's word `w` of `nbits` bits. -/
def decodeTableWord (nbits w : Nat) : Option Instr := decodeWord Config.build.lenW nbits w

end Sys2Proof
end

