-- ==== Sys2Proof/Machine/State.lean ====
section
/-! DEFINITION. The state of SRECENC, its stops, and the state after reset (`10_state.md`, `60_exceptions.md`, `70_reset_and_hazards.md`). -/

namespace Sys2Proof.Machine

/-- `PHASE`, "the only control state": its nine values (R22). -/
inductive Phase where
  /-- After reset, nothing accepted yet. -/
  | idle
  /-- A `REC` operation is accepted (the spec's `REC`). -/
  | record
  /-- `SREC` accepted, header not yet emitted. -/
  | hdr
  /-- `SREC`: data loop running. -/
  | data
  /-- `SREC`: all data emitted, count record not yet emitted. -/
  | cnt
  /-- `SREC`: count emitted. -/
  | term
  /-- `ASM` accepted, listing loop running. -/
  | asm
  /-- The operation ended without fault. -/
  | done
  /-- The last command was refused with a fault. -/
  | err
  deriving DecidableEq, Repr

/-- The six faults of R189. Taking one is a next state of the machine (R190), never a stop. -/
inductive FaultCause where
  /-- `REC` with a `KIND` not in 0, 1, 5, 9 (R192). -/
  | unsupportedRecordKind
  /-- `SREC` with more than 65535 data records needed (R193). -/
  | recordCountOverflow
  /-- The text would be longer than a finite `OUT_CAP` (R194). -/
  | allocationFailure
  /-- `REC` with a `LEN` not legal for the kind (R195). -/
  | payloadLengthRange
  /-- `SREC` with a data address that would not fit 16 bits (R196). -/
  | addressRange
  /-- `OP = 0b11` (R197). -/
  | illegalOperation
  deriving DecidableEq, Repr

/-- The moves of the two agents (R180, R181). -/
inductive Move where
  /-- The block's own step, the one `PHASE` names (R182). -/
  | blockStep
  /-- `Start(cmdw, addr, len)` (R181 a). -/
  | start (c : Command)
  /-- `Reset`: `rst = 1` is sampled, with whatever command is presented in the same cycle (R181 b, R210). -/
  | rst (presented : Option Command)
  /-- `Take`: the sink is ready for one character (R181 c, R188). -/
  | take
  /-- `Supply`: the source is ready to answer a read of `IN` (R181 d, R188). -/
  | supply
  /-- Read `STATUS` and `ERRCODE` (R181 e). -/
  | readStatus
  /-- Change one byte of `IN` (R181 f). -/
  | setInput (a : Nat) (b : Byte)
  deriving DecidableEq, Repr

/-- Memory as a list of cells, addresses rising, no cell equal to what an unlisted address reads as (log 8). -/
abbrev Memory := List Host.Cell

/-- The state. The first thirteen fields are the complete state of the block (R20). -/
structure State where
  /-- `OP[1:0]` (R21). -/
  op        : BitVec 2
  /-- `KIND[3:0]` (R21). -/
  kind      : BitVec 4
  /-- `ADDR[15:0]` (R21). -/
  addr      : Address
  /-- `LEN` (R21). -/
  len       : Nat
  /-- `PHASE` (R22). -/
  phase     : Phase
  /-- `ERRCODE[2:0]` (R24). -/
  errcode   : BitVec 3
  /-- `OFFSET` (R25). -/
  offset    : Nat
  /-- `REMAINING` (R26). -/
  remaining : Nat
  /-- `RECCNT[15:0]` (R27). -/
  reccnt    : BitVec 16
  /-- `BCNT[7:0]` (R28). -/
  bcnt      : BitVec 8
  /-- `SUM[7:0]` (R28). -/
  sum       : BitVec 8
  /-- `OUT` (R30). -/
  out       : Text
  /-- `SENT` (R31). -/
  sent      : Nat
  /-- The bytes of the line in progress that the read port has delivered (R188, log 6). -/
  got       : List Byte
  /-- The operation's last line is in `OUT` and the step waits for the sink (R63, log 7). -/
  draining  : Bool
  /-- The build's parameters (R7, log 4). -/
  cfg       : Config
  /-- `IN`, the host's (R29). -/
  input     : Memory
  /-- `RX`, what the sink has taken since the last accept (R65). -/
  rx        : Text
  /-- The moves to come, oldest first (R181, R182, log 2). -/
  moves     : List Move
  /-- How many moves have been made: the counter of the free output values (log 15). -/
  moveCount : Nat
  /-- Whether the block has been reset since power-up (R210, log 10). -/
  resetSeen : Bool
  deriving DecidableEq, Repr

/-- The output ports of R185. -/
structure OutPorts where
  busy     : Bool
  done     : Bool
  err      : Bool
  errcode  : BitVec 3
  inRe     : Bool
  inAddr   : Nat
  outValid : Bool
  outChar  : Character
  outLast  : Bool
  deriving DecidableEq, Repr

/-- The stops of the machine that are faults. No rule of the spec stops the block; its own six faults are next states. -/
inductive Fault where
  /-- A record line of more than 252 payload bytes, outside the domain of `Line` (R100, R104): raised by `emitRecord`;
  no state reached from reset raises it. Safe (log 12). -/
  | payloadTooLong
  deriving DecidableEq, Repr

/-- The refusals of the machine. -/
inductive Refusal where
  /-- A command without a meaning yet: raised by a refused arm of `exec`. Safe. -/
  | notModelled (mnemonic : String)
  /-- A move other than `Reset` before the first reset (R210, U14): raised by `startCommand` and `perform`. Safe (log 10). -/
  | beforeFirstReset
  /-- The host changes `IN` while `STATUS = BUSY`, a move the host does not have (R181, R215, U6): raised by `setInput`.
  Unsafe, as D28 says: real hardware goes on (log 11). -/
  | inputChangedWhileBusy
  /-- A command whose `LEN`, or an offset of `IN`, that `LEN_W` bits cannot carry, so that no port and no address presents it
  (R50, R70): raised by `startCommand` and `setInput`. Safe (log 5). -/
  | widerThanLenW
  /-- A read of `IN` at an offset of `LEN` or more (R52): raised by `memRead`; no state reached from reset raises it.
  Safe (log 12). -/
  | readBeyondLen
  deriving DecidableEq, Repr

/-- The state right after reset: R34 and R211 for the block; the configuration of this build; for the host's side and
the model's own fields the values of logs 2, 4, 8, 9, 10, 15. -/
def State.reset : State where
  op := 0
  kind := 0
  addr := 0
  len := 0
  phase := .idle
  errcode := 0
  offset := 0
  remaining := 0
  reccnt := 0
  bcnt := 0
  sum := 0
  out := []
  sent := 0
  got := []
  draining := false
  cfg := Config.build
  input := []
  rx := []
  moves := []
  moveCount := 0
  resetSeen := true

end Sys2Proof.Machine
end

