-- ==== Sys2Proof/Machine/Format.lean ====
section
/-! DEFINITION. The output encodings: digits, the record line, the listing line, and the whole texts as closed forms
(`20_memory.md` R57, `30_encoding.md` R76 to R83, `40_record_encoder.md` R100, R101, `41_srec_sequencer.md` R136,
`42_assembly_listing.md` R163, R164). The datapath that builds a line register by register is `buildLine` in `Ops.lean`. -/

namespace Sys2Proof.Machine

/-- `ceil16(L) = (L + 15) div 16` (R9). -/
def ceil16 (n : Nat) : Nat := (n + 15) / 16

/-- The newline character (R57). -/
def chLF : Character := 0x0A#8
/-- The space character (R57). -/
def chSpace : Character := 0x20#8
/-- The character `$` (R57). -/
def chDollar : Character := 0x24#8
/-- The character `,` (R57). -/
def chComma : Character := 0x2C#8
/-- The character `S` (R57). -/
def chS : Character := 0x53#8

/-- `hexdig` (R77). -/
def hexdig (n : BitVec 4) : Character :=
  if n.toNat ≤ 9 then BitVec.ofNat 8 (0x30 + n.toNat) else BitVec.ofNat 8 (0x41 + (n.toNat - 10))

/-- `hex2`: high nibble first (R78). -/
def hex2 (b : Byte) : Text := [hexdig (b.extractLsb' 4 4), hexdig (b.extractLsb' 0 4)]

/-- The high address byte `a[15:8]` (R79). -/
def addrHi (a : Address) : Byte := a.extractLsb' 8 8

/-- The low address byte `a[7:0]` (R79). -/
def addrLo (a : Address) : Byte := a.extractLsb' 0 8

/-- `hex4`: most significant digit first (R79). -/
def hex4 (a : Address) : Text := hex2 (addrHi a) ++ hex2 (addrLo a)

/-- `sum(P)`: the natural-number sum of the bytes of a list (R9). -/
def byteSum (p : List Byte) : Nat := (p.map BitVec.toNat).sum

/-- `Cksum(bc, ah, al, P) = 0xFF - ((bc + ah + al + sum(P)) mod 256)` (R101). -/
def cksum (bc : Nat) (ah al : Byte) (p : List Byte) : Nat :=
  0xFF - (bc + ah.toNat + al.toNat + byteSum p) % 256

/-- `Line(k, a, P)`, for a payload of at most 252 bytes (R76, R100). -/
def recordLine (k : BitVec 4) (a : Address) (p : List Byte) : Text :=
  [chS, hexdig k] ++ hex2 (BitVec.ofNat 8 (p.length + 3)) ++ hex4 a ++ p.flatMap hex2 ++
    hex2 (BitVec.ofNat 8 (cksum (p.length + 3) (addrHi a) (addrLo a) p)) ++ [chLF]

/-- The tokens of a listing line: `$` and two digits a byte, comma and space between them (R82). -/
def asmTokens : List Byte → Text
  | [] => []
  | [b] => chDollar :: hex2 b
  | b :: rest => chDollar :: hex2 b ++ [chComma, chSpace] ++ asmTokens rest

/-- `AsmLine(G)` (R163). -/
def asmLine (pre : Text) (g : List Byte) : Text := pre ++ asmTokens g ++ [chLF]

/-- Chunk `i` of a buffer: `B[16*i .. min(16*i + 15, L-1)]` (R136, R164). -/
def chunk (b : List Byte) (i : Nat) : List Byte := (b.drop (16 * i)).take 16

/-- The lines of the first `n` data records of a buffer (R136). -/
def dataLines (b : List Byte) (n : Nat) : Text :=
  (List.range n).flatMap (fun i => recordLine 1#4 (BitVec.ofNat 16 (16 * i)) (chunk b i))

/-- The header line (R132). -/
def headerLine (cfg : Config) : Text := recordLine 0#4 0#16 cfg.hdrTag.bytes

/-- `SrecText(B)`, for a buffer of at most 65536 bytes (R136). -/
def srecText (cfg : Config) (b : List Byte) : Text :=
  headerLine cfg ++ dataLines b (ceil16 b.length) ++
    recordLine 5#4 (BitVec.ofNat 16 (ceil16 b.length)) [] ++ recordLine 9#4 0#16 []

/-- The first `n` lines of the listing of a buffer (R164). -/
def asmLines (pre : Text) (b : List Byte) (n : Nat) : Text :=
  (List.range n).flatMap (fun i => asmLine pre (chunk b i))

/-- `AsmText(B)` (R164). -/
def asmText (cfg : Config) (b : List Byte) : Text := asmLines cfg.asmPrefix b (ceil16 b.length)

end Sys2Proof.Machine
end

