-- ==== Sys2Proof/Machine/Flags.lean ====
section
/-! DEFINITION. The status view, the fault codes and the accept checks (`10_state.md` R22 to R24, `60_exceptions.md` R187 to R197). -/

namespace Sys2Proof.Machine

/-- `STATUS[1:0]`: 0 `IDLE`, 1 `BUSY`, 2 `DONE`, 3 `ERR` (R22, R23). -/
def Phase.status : Phase → BitVec 2
  | .idle => 0
  | .record => 1
  | .hdr => 1
  | .data => 1
  | .cnt => 1
  | .term => 1
  | .asm => 1
  | .done => 2
  | .err => 3

/-- `STATUS` of a state (R23). -/
def State.status (s : State) : BitVec 2 := s.phase.status

/-- The pin `busy` (R23). -/
def State.busy (s : State) : Bool := s.status == 1

/-- The pin `done` (R23). -/
def State.doneFlag (s : State) : Bool := s.status == 2

/-- The pin `err` (R23). -/
def State.errFlag (s : State) : Bool := s.status == 3

/-- The codes of the faults (R189). -/
def FaultCause.code : FaultCause → BitVec 3
  | .unsupportedRecordKind => 1
  | .recordCountOverflow => 2
  | .allocationFailure => 3
  | .payloadLengthRange => 4
  | .addressRange => 5
  | .illegalOperation => 6

/-- The four supported kinds (R73, R192). -/
def kindLegal (k : BitVec 4) : Bool := k == 0 || k == 1 || k == 5 || k == 9

/-- The largest payload of a supported kind (R104). -/
def maxPayload (k : BitVec 4) : Nat := if k == 0 then 252 else if k == 1 then 16 else 0

/-- Whether `LEN` is legal for a supported kind (R104, R195). -/
def lenLegal (k : BitVec 4) (len : Nat) : Bool := len ≤ maxPayload k

/-- The length of the text a `REC` command produces (R194). -/
def recordLength (len : Nat) : Nat := 11 + 2 * len

/-- The length of the text an `SREC` command produces (R143, R194). -/
def srecLength (len : Nat) : Nat := 43 + 11 * ceil16 len + 2 * len

/-- The length of the text an `ASM` command produces; the subtraction "is never negative" (R161, R194). -/
def asmLength (cfg : Config) (len : Nat) : Nat := ceil16 len * cfg.asmPrefix.length + 5 * len - ceil16 len

/-- The last check: `if OUT_CAP = c and T > c` (R191, R194); no later failure of the sink is modelled (log 17). -/
def checkCapacity (cfg : Config) (t : Nat) : Option FaultCause :=
  match cfg.outCap with
  | none => none
  | some c => if c < t then some .allocationFailure else none

/-- The checks of `REC`: the kind before the length (R110, R191). -/
def checkRecord (cfg : Config) (k : BitVec 4) (len : Nat) : Option FaultCause :=
  if kindLegal k then
    if lenLegal k len then checkCapacity cfg (recordLength len) else some .payloadLengthRange
  else some .unsupportedRecordKind

/-- The checks of `SREC`: the count before the address (R131, R191). -/
def checkSrec (cfg : Config) (len : Nat) : Option FaultCause :=
  if 1048560 < len then some .recordCountOverflow
  else if 65536 < len then some .addressRange
  else checkCapacity cfg (srecLength len)

/-- The check of `ASM` (R161). -/
def checkAsm (cfg : Config) (len : Nat) : Option FaultCause := checkCapacity cfg (asmLength cfg len)

/-- `Check(op, kind, len)`: the first fault that applies (R191). -/
def check (cfg : Config) (op : BitVec 2) (k : BitVec 4) (len : Nat) : Option FaultCause :=
  if op = 0b11#2 then some .illegalOperation
  else if op = 0b00#2 then checkRecord cfg k len
  else if op = 0b01#2 then checkSrec cfg len
  else checkAsm cfg len

end Sys2Proof.Machine
end

