-- ==== Sys2Proof/Machine/Operands.lean ====
section
/-! DEFINITION. The operands an operation reads from `IN`: the payload of a `REC`, the chunks of `SREC` and `ASM`
(`20_memory.md` R50 to R53), and the addressing of the read port. -/

namespace Sys2Proof.Machine

/-- What an unlisted byte of `IN` reads as (DESIGN CHOICE, log 8). -/
def unlistedByte : Byte := 0x00#8

/-- The byte of a memory at an address. -/
def Memory.read : Memory → Nat → Byte
  | [], _ => unlistedByte
  | (k, v) :: rest, a => if k = a then v else Memory.read rest a

/-- The low `LEN_W` bits of a number (R9: `v[LEN_W-1:0]`). -/
def wrapLen (c : Config) (n : Nat) : Nat := n % 2 ^ c.lenW

/-- `MemRead(IN, a, 1)`: "defined for `0 <= a < LEN`"; beyond it "a refusal, not a value" (R52). -/
def memRead (s : State) (a : Nat) : Except Refusal Byte :=
  if a < s.len then .ok (Memory.read s.input a) else .error .readBeyondLen

/-- `IN[base .. base+n-1]`, ascending (R10, R52). -/
def inSlice (s : State) (base n : Nat) : List Byte := (List.range n).map (fun i => Memory.read s.input (base + i))

/-- The buffer of the operation, `IN[0 .. LEN-1]` (R71). -/
def buffer (s : State) : List Byte := inSlice s 0 s.len

/-- The length of the chunk or group in progress: `n = min(16, REMAINING)` (R133, R162). -/
def chunkLen (s : State) : Nat := min 16 s.remaining

/-- How many bytes of `IN` the line in progress renders (R110, R133, R162). -/
def need (s : State) : Nat :=
  match s.phase with
  | .record => if s.draining then 0 else s.len
  | .data => chunkLen s
  | .asm => chunkLen s
  | .idle => 0
  | .hdr => 0
  | .cnt => 0
  | .term => 0
  | .done => 0
  | .err => 0

/-- Where the payload of the line in progress starts in `IN`: 0 for `REC`, `OFFSET` for the traversals (R52). -/
def lineBase (s : State) : Nat :=
  match s.phase with
  | .record => 0
  | .data => s.offset
  | .asm => s.offset
  | .idle => 0
  | .hdr => 0
  | .cnt => 0
  | .term => 0
  | .done => 0
  | .err => 0

/-- `in_re`: a byte of the line in progress is still to be read (R185, R188). -/
def inRe (s : State) : Bool := s.got.length < need s

/-- The offset requested: "offset plus index" (R52), ascending, one byte at a time (R53, R188). -/
def inOffset (s : State) : Nat := lineBase s + s.got.length

end Sys2Proof.Machine
end

