-- ==== Sys2Proof/Machine/Ops.lean ====
section
/-! DEFINITION. The named operations over memory and registers: writes of `IN`, appends to `OUT`, the line datapath, taking
a fault and leaving it, the accept step, reset, and the two stream transfers. -/

namespace Sys2Proof.Machine

/-- An outcome's next state, changed. -/
def mapNext (o : Host.Outcome State Fault Refusal) (f : State → State) : Host.Outcome State Fault Refusal :=
  match o with
  | .next s => .next (f s)
  | .fault r => .fault r
  | .refused r => .refused r

/-- Addresses strictly rising from `lo`, below `2 ^ lenW`, no cell equal to the unlisted byte. -/
def Memory.wfFrom (lenW : Nat) : Nat → Memory → Bool
  | _, [] => true
  | lo, (k, v) :: rest =>
    decide (lo ≤ k) && decide (k < 2 ^ lenW) && v != unlistedByte && Memory.wfFrom lenW (k + 1) rest

/-- The canonical form of a memory: R50's offsets, "a `LEN_W`-bit unsigned value", each listed at most once (log 8). -/
def Memory.wf (lenW : Nat) (m : Memory) : Bool := Memory.wfFrom lenW 0 m

/-- A cell in front of a memory, or nothing where the byte is what an unlisted address reads as. -/
def Memory.cons (a : Nat) (b : Byte) (m : Memory) : Memory := if b = unlistedByte then m else (a, b) :: m

/-- One byte written; the canonical form is kept. Only the host writes `IN` (R29, R181 f). -/
def Memory.write : Memory → Nat → Byte → Memory
  | [], a, b => Memory.cons a b []
  | (k, v) :: rest, a, b =>
    if a < k then Memory.cons a b ((k, v) :: rest)
    else if a = k then Memory.cons a b rest
    else (k, v) :: Memory.write rest a b

/-- `PHASE <- p` (R10). -/
def State.setPhase (s : State) (p : Phase) : State := { s with phase := p }

/-- `EmitStr(t)`: "`OUT <- OUT ++ s`" (R54, R55). -/
def State.emitStr (s : State) (t : Text) : State := { s with out := s.out ++ t }

/-- The opening of a record line: `BCNT <- N + 3`, `SUM <- N + 3`, then `S`, the kind digit and the count digits (R112). -/
def State.beginLine (s : State) (k : BitVec 4) (bc : Byte) : State :=
  { s with bcnt := bc, sum := bc, out := s.out ++ ([chS, hexdig k] ++ hex2 bc) }

/-- One summed byte of a record line: `SUM <- (SUM + b) mod 256` and its two digits (R103, R112). -/
def State.emitByte (s : State) (b : Byte) : State :=
  { s with sum := s.sum + b, out := s.out ++ hex2 b }

/-- The close of a record line: `EmitStr(hex2(0xFF - SUM)) ; Emit(LF)` (R112). -/
def State.endLine (s : State) : State := { s with out := s.out ++ (hex2 (0xFF#8 - s.sum) ++ [chLF]) }

/-- `BuildLine(k, a, src, off, N)` on the payload read, register by register, inside one step (R112, log 18). -/
def buildLine (k : BitVec 4) (a : Address) (p : List Byte) (s : State) : State :=
  (p.foldl State.emitByte
    (((s.beginLine k (BitVec.ofNat 8 (p.length + 3))).emitByte (addrHi a)).emitByte (addrLo a))).endLine

/-- A record line appended to `OUT`; `Line` has no meaning for more than 252 payload bytes (R100, log 12). -/
def emitRecord (k : BitVec 4) (a : Address) (p : List Byte) (s : State) : Host.Outcome State Fault Refusal :=
  if p.length ≤ 252 then .next (buildLine k a p s) else .fault .payloadTooLong

/-- The line's staged bytes are consumed (log 6). -/
def State.clearGot (s : State) : State := { s with got := [] }

/-- The operation's last line is in `OUT`: the step waits for the sink (R63, log 7). -/
def State.drain (s : State) : State := { s with draining := true }

/-- `OFFSET <- OFFSET + n`, `REMAINING <- REMAINING - n`, where `n` is at most `REMAINING` (R26, R133, R162). -/
def State.advance (s : State) (n : Nat) : State :=
  { s with offset := wrapLen s.cfg (s.offset + n), remaining := s.remaining - n }

/-- `RECCNT <- RECCNT + 1` (R133). -/
def State.countRecord (s : State) : State := { s with reccnt := s.reccnt + 1#16 }

/-- The unconditional writes of the accept step (R184); the staged bytes and the wait of an earlier operation are gone
with it, and `RX` starts anew (R65, log 16). `BCNT` and `SUM` stay (log 14). -/
def State.latch (s : State) (op : BitVec 2) (k : BitVec 4) (a : Address) (len : Nat) : State :=
  { s with
    op := op, kind := k, addr := a, len := len
    out := [], sent := 0
    offset := 0, remaining := len, reccnt := 0
    got := [], draining := false, rx := [] }

/-- Taking a fault: `ERRCODE <- code` and `PHASE <- ERR`, "control goes nowhere" (R10, R190). -/
def raise (c : FaultCause) (s : State) : State := { s with errcode := c.code, phase := .err }

/-- The first phase of a command that passes every check (R184). -/
def firstPhase (op : BitVec 2) : Phase :=
  if op = 0b00#2 then .record else if op = 0b01#2 then .hdr else .asm

/-- Leaving a fault, or `DONE` or `IDLE`: the next accepted command overwrites `ERRCODE` with 0 and names its first
phase; "There is no return instruction" (R184, R198). -/
def rearm (op : BitVec 2) (s : State) : State := { s with errcode := 0, phase := firstPhase op }

/-- The accept step (R184). -/
def accept (op : BitVec 2) (k : BitVec 4) (a : Address) (len : Nat) (s : State) : State :=
  match check s.cfg op k len with
  | some c => raise c (s.latch op k a len)
  | none => rearm op (s.latch op k a len)

/-- `Start(cmdw, addr, len)`: no move before the first reset (R210, U14), none with a `len` the port cannot carry (R70,
log 5), ignored while `BUSY` (R186), otherwise the accept step. -/
def startCommand (op : BitVec 2) (k : BitVec 4) (a : Address) (len : Nat) (s : State) :
    Host.Outcome State Fault Refusal :=
  if s.resetSeen then
    if lenFits s.cfg.lenW len then
      if s.busy then .next s else .next (accept op k a len s)
    else .refused .widerThanLenW
  else .refused .beforeFirstReset

/-- `Reset`: the block takes the reset state of R211; `IN`, the parameters and what the sink has received stay (R213). -/
def State.resetBlock (s : State) : State :=
  { s with
    op := 0, kind := 0, addr := 0, len := 0
    phase := .idle, errcode := 0
    offset := 0, remaining := 0, reccnt := 0
    bcnt := 0, sum := 0
    out := [], sent := 0
    got := [], draining := false
    resetSeen := true }

/-- One transfer on the output stream: `SENT <- SENT + 1` and the character is the sink's (R65, R188). -/
def State.transfer (s : State) : State :=
  { s with sent := s.sent + 1, rx := s.rx ++ (s.out[s.sent]?).toList }

/-- The step that waits for the sink ends when the last character is handed over: `PHASE <- DONE` (R63, R110, R135, log 7). -/
def State.finishIfDrained (s : State) : State :=
  if s.draining && s.sent == s.out.length then { s with phase := .done, draining := false } else s

/-- `Take`: nothing where no character is offered (R188). -/
def takeChar (s : State) : Host.Outcome State Fault Refusal :=
  if s.sent < s.out.length then .next s.transfer.finishIfDrained else .next s

/-- A byte the read port delivers (R188, log 6). -/
def State.stage (s : State) (b : Byte) : State := { s with got := s.got ++ [b] }

/-- `Supply`: the byte at the requested offset; nothing where none is requested (R181 d, R188). -/
def supplyByte (s : State) : Host.Outcome State Fault Refusal :=
  if inRe s then
    match memRead s (inOffset s) with
    | .ok b => .next (s.stage b)
    | .error r => .refused r
  else .next s

/-- The host changes a byte of `IN`: only while `STATUS` is not `BUSY` (R181 f, R215, U6), at an offset of `LEN_W` bits (R50). -/
def setInput (a : Nat) (b : Byte) (s : State) : Host.Outcome State Fault Refusal :=
  if s.busy then .refused .inputChangedWhileBusy
  else if lenFits s.cfg.lenW a then .next { s with input := Memory.write s.input a b }
  else .refused .widerThanLenW

/-- The move at the head of the list is taken off it and counted (log 2). -/
def State.popMove (s : State) (rest : List Move) : State := { s with moves := rest, moveCount := s.moveCount + 1 }

end Sys2Proof.Machine
end

