-- ==== Sys2Proof/Machine/Asm.lean ====
section
/-! DEFINITION. The operation ASM: its command and the group loop (`42_assembly_listing.md`). -/

namespace Sys2Proof.Machine

/-- `ASM len` (R160). -/
def execAsm (kind : BitVec 4) (addr : Address) (len : Nat) (s : State) : Host.Outcome State Fault Refusal :=
  startCommand 0b10#2 kind addr len s

/-- `step ASM` (R162): the exit when nothing remains and the sink has taken every character, otherwise one listing line
once its group is read. -/
def stepAsm (s : State) : Host.Outcome State Fault Refusal :=
  if s.remaining = 0 then
    if s.sent = s.out.length then .next (s.setPhase .done) else .next s
  else if inRe s then .next s
  else .next ((s.emitStr (asmLine s.cfg.asmPrefix s.got)).clearGot.advance (chunkLen s))

end Sys2Proof.Machine
end

