-- ==== Sys2Proof/Machine/Record.lean ====
section
/-! DEFINITION. The operation REC: its four forms and its block step (`40_record_encoder.md`). -/

namespace Sys2Proof.Machine

/-- `REC.S0 addr, len` (R105). -/
def execRecS0 (addr : Address) (len : Nat) (s : State) : Host.Outcome State Fault Refusal :=
  startCommand 0b00#2 0#4 addr len s

/-- `REC.S1 addr, len` (R106). -/
def execRecS1 (addr : Address) (len : Nat) (s : State) : Host.Outcome State Fault Refusal :=
  startCommand 0b00#2 1#4 addr len s

/-- `REC.S5 addr, len` (R107). -/
def execRecS5 (addr : Address) (len : Nat) (s : State) : Host.Outcome State Fault Refusal :=
  startCommand 0b00#2 5#4 addr len s

/-- `REC.S9 addr, len` (R108). -/
def execRecS9 (addr : Address) (len : Nat) (s : State) : Host.Outcome State Fault Refusal :=
  startCommand 0b00#2 9#4 addr len s

/-- `step REC` (R110): the line once its payload is read, then the wait for the sink. -/
def stepRecord (s : State) : Host.Outcome State Fault Refusal :=
  if s.draining then .next s
  else if inRe s then .next s
  else mapNext (emitRecord s.kind s.addr s.got s) (fun t => t.clearGot.drain)

end Sys2Proof.Machine
end

