-- ==== Sys2Proof/Machine/Reserved.lean ====
section
/-! DEFINITION. The reserved commands: the twelve illegal record kinds (`40_record_encoder.md` R109) and the reserved
operation code (`60_exceptions.md` R197). Each takes its fault in the accept step. -/

namespace Sys2Proof.Machine

/-- `REC.K2 addr, len` (R109, R192). -/
def execRecK2 (addr : Address) (len : Nat) (s : State) : Host.Outcome State Fault Refusal :=
  startCommand 0b00#2 2#4 addr len s

/-- `REC.K3 addr, len` (R109, R192). -/
def execRecK3 (addr : Address) (len : Nat) (s : State) : Host.Outcome State Fault Refusal :=
  startCommand 0b00#2 3#4 addr len s

/-- `REC.K4 addr, len` (R109, R192). -/
def execRecK4 (addr : Address) (len : Nat) (s : State) : Host.Outcome State Fault Refusal :=
  startCommand 0b00#2 4#4 addr len s

/-- `REC.K6 addr, len` (R109, R192). -/
def execRecK6 (addr : Address) (len : Nat) (s : State) : Host.Outcome State Fault Refusal :=
  startCommand 0b00#2 6#4 addr len s

/-- `REC.K7 addr, len` (R109, R192). -/
def execRecK7 (addr : Address) (len : Nat) (s : State) : Host.Outcome State Fault Refusal :=
  startCommand 0b00#2 7#4 addr len s

/-- `REC.K8 addr, len` (R109, R192). -/
def execRecK8 (addr : Address) (len : Nat) (s : State) : Host.Outcome State Fault Refusal :=
  startCommand 0b00#2 8#4 addr len s

/-- `REC.KA addr, len` (R109, R192). -/
def execRecKA (addr : Address) (len : Nat) (s : State) : Host.Outcome State Fault Refusal :=
  startCommand 0b00#2 10#4 addr len s

/-- `REC.KB addr, len` (R109, R192). -/
def execRecKB (addr : Address) (len : Nat) (s : State) : Host.Outcome State Fault Refusal :=
  startCommand 0b00#2 11#4 addr len s

/-- `REC.KC addr, len` (R109, R192). -/
def execRecKC (addr : Address) (len : Nat) (s : State) : Host.Outcome State Fault Refusal :=
  startCommand 0b00#2 12#4 addr len s

/-- `REC.KD addr, len` (R109, R192). -/
def execRecKD (addr : Address) (len : Nat) (s : State) : Host.Outcome State Fault Refusal :=
  startCommand 0b00#2 13#4 addr len s

/-- `REC.KE addr, len` (R109, R192). -/
def execRecKE (addr : Address) (len : Nat) (s : State) : Host.Outcome State Fault Refusal :=
  startCommand 0b00#2 14#4 addr len s

/-- `REC.KF addr, len` (R109, R192). -/
def execRecKF (addr : Address) (len : Nat) (s : State) : Host.Outcome State Fault Refusal :=
  startCommand 0b00#2 15#4 addr len s

/-- `OP3 len` (R197). -/
def execOp3 (kind : BitVec 4) (addr : Address) (len : Nat) (s : State) : Host.Outcome State Fault Refusal :=
  startCommand 0b11#2 kind addr len s

end Sys2Proof.Machine
end

