-- ==== Sys2Proof/Machine/Srec.lean ====
section
/-! DEFINITION. The operation SREC: its command and the four phases of the traversal (`41_srec_sequencer.md`). -/

namespace Sys2Proof.Machine

/-- `SREC len` (R130). -/
def execSrec (kind : BitVec 4) (addr : Address) (len : Nat) (s : State) : Host.Outcome State Fault Refusal :=
  startCommand 0b01#2 kind addr len s

/-- `step HDR` (R132). -/
def stepHdr (s : State) : Host.Outcome State Fault Refusal :=
  mapNext (emitRecord 0#4 0x0000#16 s.cfg.hdrTag.bytes s) (fun t => t.setPhase .data)

/-- `step DATA` (R133): the exit when nothing remains, otherwise one data record once its chunk is read. -/
def stepData (s : State) : Host.Outcome State Fault Refusal :=
  if s.remaining = 0 then .next (s.setPhase .cnt)
  else if inRe s then .next s
  else mapNext (emitRecord 1#4 (BitVec.ofNat 16 s.offset) s.got s)
    (fun t => (t.clearGot.advance (chunkLen s)).countRecord)

/-- `step CNT` (R134). -/
def stepCnt (s : State) : Host.Outcome State Fault Refusal :=
  mapNext (emitRecord 5#4 s.reccnt [] s) (fun t => t.setPhase .term)

/-- `step TERM` (R135): the terminator, then the wait for the sink. -/
def stepTerm (s : State) : Host.Outcome State Fault Refusal :=
  if s.draining then .next s
  else mapNext (emitRecord 9#4 0x0000#16 [] s) (fun t => t.drain)

end Sys2Proof.Machine
end

