-- ==== Sys2Proof/Machine/Dispatch.lean ====
section
/-! DEFINITION. The meaning of every command: one arm per constructor. -/

namespace Sys2Proof.Machine

def exec (i : Instr) (s : State) : Host.Outcome State Fault Refusal :=
  match i with
  | .recS0 addr len => Sys2Proof.Machine.execRecS0 addr len s
  | .recS1 addr len => Sys2Proof.Machine.execRecS1 addr len s
  | .recS5 addr len => Sys2Proof.Machine.execRecS5 addr len s
  | .recS9 addr len => Sys2Proof.Machine.execRecS9 addr len s
  | .srec kind addr len => Sys2Proof.Machine.execSrec kind addr len s
  | .asm kind addr len => Sys2Proof.Machine.execAsm kind addr len s
  | .recK2 addr len => Sys2Proof.Machine.execRecK2 addr len s
  | .recK3 addr len => Sys2Proof.Machine.execRecK3 addr len s
  | .recK4 addr len => Sys2Proof.Machine.execRecK4 addr len s
  | .recK6 addr len => Sys2Proof.Machine.execRecK6 addr len s
  | .recK7 addr len => Sys2Proof.Machine.execRecK7 addr len s
  | .recK8 addr len => Sys2Proof.Machine.execRecK8 addr len s
  | .recKA addr len => Sys2Proof.Machine.execRecKA addr len s
  | .recKB addr len => Sys2Proof.Machine.execRecKB addr len s
  | .recKC addr len => Sys2Proof.Machine.execRecKC addr len s
  | .recKD addr len => Sys2Proof.Machine.execRecKD addr len s
  | .recKE addr len => Sys2Proof.Machine.execRecKE addr len s
  | .recKF addr len => Sys2Proof.Machine.execRecKF addr len s
  | .op3 kind addr len => Sys2Proof.Machine.execOp3 kind addr len s

end Sys2Proof.Machine
end

