-- ==== Sys2Proof/Machine/Moves.lean ====
section
/-! DEFINITION. The moves of the two agents, and the output ports (`60_exceptions.md` R180 to R188). -/

namespace Sys2Proof.Machine

/-- The block step `PHASE` names; none is enabled in `IDLE`, `DONE` and `ERR` (R22, R182). -/
def blockStep (s : State) : Host.Outcome State Fault Refusal :=
  match s.phase with
  | .idle => .next s
  | .record => stepRecord s
  | .hdr => stepHdr s
  | .data => stepData s
  | .cnt => stepCnt s
  | .term => stepTerm s
  | .asm => stepAsm s
  | .done => .next s
  | .err => .next s

/-- A move only after the first reset: "a model gives the block no step" before it (R210, U14). -/
def afterReset (s : State) (o : Host.Outcome State Fault Refusal) : Host.Outcome State Fault Refusal :=
  if s.resetSeen then o else .refused .beforeFirstReset

/-- One move (R181, R182). A command presented in a cycle with `rst = 1` is not looked at (R210). -/
def perform (m : Move) (s : State) : Host.Outcome State Fault Refusal :=
  match m with
  | .blockStep => afterReset s (blockStep s)
  | .start c => exec (decodeCommand c) s
  | .rst _ => .next s.resetBlock
  | .take => afterReset s (takeChar s)
  | .supply => afterReset s (supplyByte s)
  | .readStatus => afterReset s (.next s)
  | .setInput a b => afterReset s (setInput a b s)

/-- `out_valid` (R188). -/
def outValid (s : State) : Bool := s.sent < s.out.length

/-- Whether the line at the end of `OUT` is the last of the operation's text (R188). -/
def lastLineOut (s : State) : Bool := s.draining || (s.phase == .asm && s.remaining == 0)

/-- The output ports (R185, R187, R188). Without a request or an offer the data ports are free (U15, log 15), but that
`out_last` is 0 after reset (R211). -/
def outPorts (s : State) : OutPorts where
  busy := s.busy
  done := s.doneFlag
  err := s.errFlag
  errcode := s.errcode
  inRe := inRe s
  inAddr := if inRe s then wrapLen s.cfg (inOffset s) else wrapLen s.cfg (Config.freeInAddr s.moveCount)
  outValid := outValid s
  outChar := if outValid s then s.out.getD s.sent 0 else Config.freeOutChar s.moveCount
  outLast :=
    if outValid s then lastLineOut s && s.sent + 1 == s.out.length
    else if s.phase == .idle then false else Config.freeOutLast s.moveCount

end Sys2Proof.Machine
end

