-- ==== Sys2Proof/Machine/Step.lean ====
section
/-! DEFINITION. One step of the machine: the next move of the list, or the block's own when the host is silent (log 2). -/

namespace Sys2Proof.Machine

/-- The step. -/
def step (s : State) : Host.Outcome State Fault Refusal :=
  match s.moves with
  | [] => perform .blockStep (s.popMove [])
  | m :: rest => perform m (s.popMove rest)

/-- The state whose very next move is the `Start` of the opcode table's word `w`, or the state itself where `w` has bits
no port carries (log 13). -/
def State.withFetchWord (s : State) (nbits w : Nat) : State :=
  match Command.ofBytes s.cfg.lenW (tableImage s.cfg.lenW nbits w) with
  | .ok (c, _) => { s with moves := .start c :: s.moves }
  | .error _ => s

end Sys2Proof.Machine
end

