-- ==== Sys2Proof/Safety.lean ====
section
/-! DEFINITION. The words claims are made in: the invariants of `10_state.md` R32, the text an operation must produce, the
text it has produced so far, the work it has left, and a host that answers at once. -/

namespace Sys2Proof.Machine

/-- A command may be accepted: the block has been reset and is not `BUSY` (R184, R210). -/
def Ready (s : State) : Prop := s.resetSeen = true ∧ s.busy = false

/-- A text of `t` characters fits `OUT_CAP` (R194). -/
def Fits (cfg : Config) (t : Nat) : Prop := ∀ c, cfg.outCap = some c → t ≤ c

/-- The length of the text the accepted command produces: `T` of R191. -/
def opLength (s : State) : Nat :=
  if s.op = 0b00#2 then recordLength s.len
  else if s.op = 0b01#2 then srecLength s.len
  else asmLength s.cfg s.len

/-- The whole text of the accepted command on the buffer in `IN` (R110, R136, R164). -/
def finalText (s : State) : Text :=
  if s.op = 0b00#2 then recordLine s.kind s.addr (buffer s)
  else if s.op = 0b01#2 then srecText s.cfg (buffer s)
  else asmText s.cfg (buffer s)

/-- `PHASE` is one of the four phases of `SREC`. -/
def Phase.ofSrec (p : Phase) : Prop := p = .hdr ∨ p = .data ∨ p = .cnt ∨ p = .term

/-- "Invariants every reachable state keeps" (R32), with what the accept checks and the two hidden fields add. -/
structure Inv (s : State) : Prop where
  /-- The block has been reset (R210). -/
  reset : s.resetSeen = true
  /-- `LEN`, `OFFSET` and `REMAINING` hold `LEN_W` bits (R21, R25, R26). -/
  widths : s.len < 2 ^ s.cfg.lenW ∧ s.offset < 2 ^ s.cfg.lenW ∧ s.remaining < 2 ^ s.cfg.lenW
  /-- R32 (a). -/
  split : s.phase = .data ∨ s.phase = .cnt ∨ s.phase = .term ∨ s.phase = .asm →
    s.offset + s.remaining = s.len
  /-- R32 (b). -/
  count : s.phase = .data ∨ s.phase = .cnt ∨ s.phase = .term →
    s.reccnt.toNat = ceil16 s.offset ∧ (s.remaining ≠ 0 → s.offset % 16 = 0)
  /-- R32 (c). -/
  countAll : s.phase = .cnt ∨ s.phase = .term → s.remaining = 0 ∧ s.reccnt.toNat = ceil16 s.len
  /-- R32 (d). -/
  errIff : s.phase = .err ↔ s.errcode ≠ 0
  errOut : s.phase = .err → s.out = []
  /-- R32 (e). -/
  sentLe : s.sent ≤ s.out.length
  /-- R32 (f). -/
  idleOut : s.phase = .idle → s.out = []
  /-- The groups of `ASM` start at multiples of 16 (R162). -/
  asmAligned : s.phase = .asm → s.remaining ≠ 0 → s.offset % 16 = 0
  /-- Before the first line the traversal registers are as accept left them (R184). -/
  fresh : s.phase = .record ∨ s.phase = .hdr → s.offset = 0 ∧ s.remaining = s.len ∧ s.reccnt = 0
  /-- What the checks of `REC` passed (R104, R191). -/
  recordOp : s.phase = .record → s.op = 0b00#2 ∧ kindLegal s.kind = true ∧ lenLegal s.kind s.len = true
  /-- What the checks of `SREC` passed (R131). -/
  srecOp : s.phase.ofSrec → s.op = 0b01#2 ∧ s.len ≤ 65536
  /-- `ASM` runs in its own phase (R184). -/
  asmOp : s.phase = .asm → s.op = 0b10#2
  /-- The text fits the output (R194). -/
  fits : s.busy = true → Fits s.cfg (opLength s)
  /-- What the sink holds: `RX = OUT[0 .. SENT-1]` since the last accept (R65). -/
  rxIs : s.phase ≠ .idle → s.rx = s.out.take s.sent
  /-- `DONE` only when every character is handed over (R63). -/
  doneSent : s.phase = .done → s.sent = s.out.length
  /-- The staged bytes are those of the line in progress, in order (R53). -/
  gotLe : s.got.length ≤ need s
  gotIs : s.got = inSlice s (lineBase s) s.got.length
  /-- The wait for the sink is in the last line's phase and something is left to take (R63). -/
  drainIn : s.draining = true → (s.phase = .record ∨ s.phase = .term) ∧ s.sent < s.out.length

/-- `OUT` holds exactly the lines the phases so far emit (R110, R132 to R135, R162); in `DONE` the buffer may have been
changed since (R181 f), and nothing is said. -/
def TextInv (s : State) : Prop :=
  match s.phase with
  | .idle => s.out = []
  | .record => s.out = if s.draining then recordLine s.kind s.addr (buffer s) else []
  | .hdr => s.out = []
  | .data => s.out = headerLine s.cfg ++ dataLines (buffer s) s.reccnt.toNat
  | .cnt => s.out = headerLine s.cfg ++ dataLines (buffer s) (ceil16 s.len)
  | .term => s.out = headerLine s.cfg ++ dataLines (buffer s) (ceil16 s.len) ++
      recordLine 5#4 (BitVec.ofNat 16 (ceil16 s.len)) [] ++ (if s.draining then recordLine 9#4 0#16 [] else [])
  | .asm => s.out = asmLines s.cfg.asmPrefix (buffer s) (ceil16 s.offset)
  | .done => True
  | .err => s.out = []

/-- The block steps an operation has left (R144, R162, R223). -/
def stepsLeft (s : State) : Nat :=
  match s.phase with
  | .record => if s.draining then 0 else 1
  | .hdr => ceil16 s.len + 4
  | .data => ceil16 s.remaining + 3
  | .cnt => 2
  | .term => if s.draining then 0 else 1
  | .asm => ceil16 s.remaining + 1
  | .idle => 0
  | .done => 0
  | .err => 0

/-- The reads of `IN` an operation has left (R53, R223). -/
def readsLeft (s : State) : Nat :=
  match s.phase with
  | .record => if s.draining then 0 else s.len - s.got.length
  | .hdr => s.len
  | .data => s.remaining - s.got.length
  | .asm => s.remaining - s.got.length
  | .cnt => 0
  | .term => 0
  | .idle => 0
  | .done => 0
  | .err => 0

/-- The characters an operation has still to hand over (R223). -/
def transfersLeft (s : State) : Nat := if s.busy then opLength s - s.sent else 0

/-- The moves an operation has left: block steps, reads and transfers (R223). -/
def workLeft (s : State) : Nat := stepsLeft s + readsLeft s + transfersLeft s

/-- The move of a host that answers at once: take what is offered, answer what is asked, else let the block move (R223). -/
def promptMove (s : State) : Move :=
  if s.sent < s.out.length then .take else if inRe s then .supply else .blockStep

/-- One step of the machine with such a host. -/
def promptStep (s : State) : Host.Outcome State Fault Refusal := step { s with moves := promptMove s :: s.moves }

/-- `n` steps of the machine with such a host, stopping at the first stop. -/
def promptRun : Nat → State → Host.Outcome State Fault Refusal
  | 0, s => .next s
  | n + 1, s =>
    match promptStep s with
    | .next t => promptRun n t
    | .fault r => .fault r
    | .refused r => .refused r

end Sys2Proof.Machine
end

