-- ==== Sys2Proof/Certificates/Slice0/Obligations.lean ====
section
/-! DEFINITION. The statements for the provers. Each docstring names the rules of spec/ it formalises, or says that it rests
on a choice of the model and names the log entry. -/

open Sys2Proof Sys2Proof.Machine

namespace Sys2Proof

/-- A ready state after the accept step, written out: the operands, the phase and the error code given, the other registers
of R184 at their initial values, the hidden fields and `RX` empty, everything else as before. -/
def afterAccept (o : BitVec 2) (k : BitVec 4) (a : Address) (l : Nat) (p : Phase) (e : BitVec 3) (s : State) : State :=
  { s with
    op := o, kind := k, addr := a, len := l, phase := p, errcode := e
    offset := 0, remaining := l, reccnt := 0, out := [], sent := 0
    got := [], draining := false, rx := [] }

/-- A command takes a fault at accept: the next state is its fault entry, and nothing is offered or requested (R190). -/
def TakesFault (i : Instr) (e : BitVec 3) (s : State) : Prop :=
  ∃ t, exec i s = .next t ∧ t = afterAccept i.op i.kind i.addr i.len .err e s ∧
    (outPorts t).err = true ∧ (outPorts t).errcode = e ∧ (outPorts t).outValid = false ∧ (outPorts t).inRe = false

/-- The four legal forms of `REC`, with kind and largest payload (R73, R104). -/
def recordForms : List ((Address → Nat → Instr) × BitVec 4 × Nat) :=
  [(.recS0, 0#4, 252), (.recS1, 1#4, 16), (.recS5, 5#4, 0), (.recS9, 9#4, 0)]

/-- The twelve illegal forms of `REC`, with kind (R74). -/
def illegalForms : List ((Address → Nat → Instr) × BitVec 4) :=
  [(.recK2, 2#4), (.recK3, 3#4), (.recK4, 4#4), (.recK6, 6#4), (.recK7, 7#4), (.recK8, 8#4),
   (.recKA, 10#4), (.recKB, 11#4), (.recKC, 12#4), (.recKD, 13#4), (.recKE, 14#4), (.recKF, 15#4)]

/-- The terminator line `S9030000FC` and its newline, character by character (R135). -/
def terminatorLine : Text := [0x53#8, 0x39#8, 0x30#8, 0x33#8, 0x30#8, 0x30#8, 0x30#8, 0x30#8, 0x46#8, 0x43#8, 0x0A#8]

/-- The low byte of the sum of a record: byte count, address bytes, payload bytes (R101, R112). -/
def recordSum (a : Address) (p : List Byte) : BitVec 8 :=
  BitVec.ofNat 8 (p.length + 3 + (addrHi a).toNat + (addrLo a).toNat + byteSum p)

/-- The next move is the block's own step: the list of moves names it, or is empty (R182, log 2). -/
def BlockMoves (s : State) : Prop := s.moves = [] ∨ ∃ more, s.moves = .blockStep :: more

end Sys2Proof

/-! ## Encoding -/

/-- Tier 3. Whatever `LEN_W` is, decoding the image of a command gives the command back with every operand, whatever follows
it (R7, R70, R71, R73, R75; the byte image is the model's, log 13). -/
def Obligations.DecodeOfEncodeIsTheCommand : Prop :=
  ∀ (w : Nat) (i : Instr) (rest : List Byte), i.wf w = true → decode w (encode w i ++ rest) = .ok (i, rest)

/-- Tier 2. Bytes that decode are the image of the command they decode to, and its `LEN` is one the port carries: each image has
one meaning and each command one image (R70, R75; the byte image is the model's, log 13). -/
def Obligations.DecodedImageIsTheEncoding : Prop :=
  ∀ (w : Nat) (bs : List Byte) (i : Instr) (rest : List Byte), decode w bs = .ok (i, rest) →
    i.wf w = true ∧ bs = encode w i ++ rest

/-- Tier 1. Values of `cmdw` written out from the encoding tables decode to the commands they stand for (R73 to R75, R84). The
bytes they stand in are the model's choice (log 13): `cmdw` in the first byte, and in the last clause the seven bytes of
`LEN_W = 32`, low byte first, so that 0x34, 0x12 is the address 0x1234. -/
def Obligations.CommandWordsDecodeAsWrittenOut : Prop :=
  decodeTableWord 8 0b000000 = some (.recS0 0 0) ∧
  decodeTableWord 8 0b000001 = some (.recS1 0 0) ∧
  decodeTableWord 8 0b000101 = some (.recS5 0 0) ∧
  decodeTableWord 8 0b001001 = some (.recS9 0 0) ∧
  decodeTableWord 8 0b010000 = some (.srec 0 0 0) ∧
  decodeTableWord 8 0b011111 = some (.srec 15 0 0) ∧
  decodeTableWord 8 0b100000 = some (.asm 0 0 0) ∧
  decodeTableWord 8 0b000010 = some (.recK2 0 0) ∧
  decodeTableWord 8 0b001111 = some (.recKF 0 0) ∧
  decodeTableWord 8 0b110010 = some (.op3 2 0 0) ∧
  decode 32 [0x01#8, 0x34#8, 0x12#8, 0x56#8, 0x00#8, 0x00#8, 0x00#8] = .ok (.recS1 0x1234#16 0x56, [])

/-- Tier 1. Every one of the 64 command words matches exactly one row of the opcode table, and the decoder gives that row's
command (R74, R86). -/
def Obligations.EveryCommandWordMatchesOneRow : Prop :=
  ∀ (w : CmdWord) (a : Address) (l : Nat), ∃ r,
    opcodeRows.filter (·.matchesWord w) = [r] ∧ (decodeCommand { cmdw := w, addr := a, len := l }).mnemonic = r.mnemonic

/-- Tier 1. The decoder refuses by name what is no command image: too few bytes, a bit above the six of `cmdw`, or bytes of
`LEN` whose value `LEN_W` bits do not hold (the byte image is the model's, log 13). -/
def Obligations.WhatIsNoImageIsRefusedByName : Prop :=
  ∀ w : Nat,
    (∀ bs : List Byte, bs.length < imageLength w → decode w bs = .error (.truncated bs.length)) ∧
    (∀ (b : Byte) (bs : List Byte), imageLength w ≤ bs.length + 1 → 0x40 ≤ b.toNat →
      decode w (b :: bs) = .error (.notACommandWord b)) ∧
    (∀ (b a0 a1 : Byte) (bs : List Byte), lenBytes w ≤ bs.length → b.toNat < 0x40 →
      2 ^ w ≤ natOfBytes (bs.take (lenBytes w)) →
      decode w (b :: a0 :: a1 :: bs) = .error (.operandTooWide (natOfBytes (bs.take (lenBytes w)))))

/-! ## The step -/

/-- Tier 1. When the next move is the `Start` of a command image that decodes to `i`, the step is `exec i` on the state with
that move taken off the list and counted; the opcode table's word, placed as the next move, is what the very next step runs,
and `decodeTableWord` reads it so for this hardware's `LEN_W`; a silent host leaves the block its own step (R181, R182; the
list of moves is log 2, the byte image log 13). -/
def Obligations.StepRunsThePresentedCommand : Prop :=
  (∀ (s : State) (bs : List Byte) (c : Command) (rest rest' : List Byte) (i : Instr) (more : List Move),
    Command.ofBytes s.cfg.lenW bs = .ok (c, rest) → decode s.cfg.lenW bs = .ok (i, rest') → s.moves = .start c :: more →
    step s = exec i { s with moves := more, moveCount := s.moveCount + 1 }) ∧
  (∀ (s : State) (nbits w : Nat) (i : Instr), decodeWord s.cfg.lenW nbits w = some i →
    step (s.withFetchWord nbits w) = exec i { s with moveCount := s.moveCount + 1 }) ∧
  (∀ nbits w : Nat, decodeTableWord nbits w = decodeWord 32 nbits w) ∧
  (∀ s : State, s.moves = [] → s.resetSeen = true → step s = blockStep { s with moveCount := s.moveCount + 1 })

/-! ## Reset -/

/-- Tier 1. The state after reset has the values of R34. -/
def Obligations.StateAfterReset : Prop :=
  let s := State.reset
  s.phase = .idle ∧ s.status = 0 ∧ s.busy = false ∧ s.doneFlag = false ∧ s.errFlag = false ∧ s.errcode = 0 ∧
  s.op = 0 ∧ s.kind = 0 ∧ s.addr = 0 ∧ s.len = 0 ∧ s.offset = 0 ∧ s.remaining = 0 ∧ s.reccnt = 0 ∧
  s.bcnt = 0 ∧ s.sum = 0 ∧ s.out = [] ∧ s.sent = 0

/-- Tier 1. `Reset` in any state, whatever is presented with it, gives the registers and outputs of R34 and R211, and leaves
`IN`, the parameters and what the sink has received (R213); the block then waits for a `Start` (R211). -/
def Obligations.ResetFromAnyState : Prop :=
  ∀ (s : State) (presented : Option Command), ∃ t, perform (.rst presented) s = .next t ∧
    t.phase = .idle ∧ t.errcode = 0 ∧ t.op = 0 ∧ t.kind = 0 ∧ t.addr = 0 ∧ t.len = 0 ∧
    t.offset = 0 ∧ t.remaining = 0 ∧ t.reccnt = 0 ∧ t.bcnt = 0 ∧ t.sum = 0 ∧ t.out = [] ∧ t.sent = 0 ∧
    t.status = 0 ∧ (outPorts t).busy = false ∧ (outPorts t).done = false ∧ (outPorts t).err = false ∧
    (outPorts t).errcode = 0 ∧ (outPorts t).inRe = false ∧ (outPorts t).outValid = false ∧ (outPorts t).outLast = false ∧
    (∀ x, Memory.read t.input x = Memory.read s.input x) ∧ t.cfg = s.cfg ∧ t.rx = s.rx ∧
    perform .blockStep t = .next t

/-- Tier 1. Before the first reset every move but `Reset` is refused by name, every command among them (R210, U14; log 10). -/
def Obligations.NothingMovesBeforeTheFirstReset : Prop :=
  (∀ (i : Instr) (s : State), s.resetSeen = false → exec i s = .refused .beforeFirstReset) ∧
  (∀ (m : Move) (s : State), s.resetSeen = false → (∀ p, m ≠ .rst p) → perform m s = .refused .beforeFirstReset) ∧
  (∀ (p : Option Command) (s : State), ∃ t, perform (.rst p) s = .next t ∧ t.resetSeen = true)

/-- Tier 1. This hardware's parameters meet their constraints, whatever the OPEN ones are; `LEN_W` is 32 and `OUT_CAP` is
`none` (R7). -/
def Obligations.BuildParametersMeetTheirConstraints : Prop :=
  Config.build.wf = true ∧ 8 ≤ Config.build.lenW ∧ Config.build.lenW = 32 ∧ Config.build.outCap = none

/-! ## Status and ports -/

/-- Tier 1. `STATUS` by phase, the pins as its decodes, at most one of them 1, all 0 exactly in `IDLE`, and `errcode` shown at
all times (R23, R187). -/
def Obligations.StatusIsTheViewOfThePhase : Prop :=
  ∀ s : State,
    (s.status = 0 ↔ s.phase = .idle) ∧ (s.status = 2 ↔ s.phase = .done) ∧ (s.status = 3 ↔ s.phase = .err) ∧
    (s.status = 1 ↔ s.phase = .record ∨ s.phase = .hdr ∨ s.phase = .data ∨ s.phase = .cnt ∨ s.phase = .term ∨ s.phase = .asm) ∧
    ((outPorts s).busy = true ↔ s.status = 1) ∧ ((outPorts s).done = true ↔ s.status = 2) ∧
    ((outPorts s).err = true ↔ s.status = 3) ∧ (outPorts s).errcode = s.errcode ∧
    ¬ ((outPorts s).busy = true ∧ (outPorts s).done = true) ∧ ¬ ((outPorts s).busy = true ∧ (outPorts s).err = true) ∧
    ¬ ((outPorts s).done = true ∧ (outPorts s).err = true) ∧
    ((outPorts s).busy = false ∧ (outPorts s).done = false ∧ (outPorts s).err = false ↔ s.phase = .idle)

/-- Tier 2. The character offered is `OUT[SENT]`, and `out_last` marks exactly the final character of the operation's final
text (R188). -/
def Obligations.LastMarksTheFinalCharacter : Prop :=
  ∀ s : State, Inv s → TextInv s → s.busy = true → s.sent < s.out.length →
    (outPorts s).outValid = true ∧ some (outPorts s).outChar = s.out[s.sent]? ∧
    ((outPorts s).outLast = true ↔ s.sent + 1 = (finalText s).length)

/-! ## The accept step and the faults -/

/-- Tier 2. Every command in a ready state: the accept step's writes, then the fault entry or the first phase (R184). -/
def Obligations.AcceptStepOfEveryCommand : Prop :=
  ∀ (i : Instr) (s : State), Ready s → i.wf s.cfg.lenW = true →
    (∀ c, check s.cfg i.op i.kind i.len = some c →
      exec i s = .next (afterAccept i.op i.kind i.addr i.len .err c.code s)) ∧
    (check s.cfg i.op i.kind i.len = none →
      exec i s = .next (afterAccept i.op i.kind i.addr i.len
        (if i.op = 0b00#2 then .record else if i.op = 0b01#2 then .hdr else .asm) 0 s))

/-- Tier 2. One command reports one fault, the first that applies, and `ERRCODE` is never 7 (R191 to R197). -/
def Obligations.AcceptReportsTheFirstFault : Prop :=
  ∀ (i : Instr) (s : State), Ready s → i.wf s.cfg.lenW = true → ∃ t, exec i s = .next t ∧
    (t.errcode = 6 ↔ i.op = 0b11#2) ∧
    (t.errcode = 1 ↔ i.op = 0b00#2 ∧ ¬ (i.kind = 0 ∨ i.kind = 1 ∨ i.kind = 5 ∨ i.kind = 9)) ∧
    (t.errcode = 4 ↔ i.op = 0b00#2 ∧ ((i.kind = 0 ∧ 252 < i.len) ∨ (i.kind = 1 ∧ 16 < i.len) ∨
      ((i.kind = 5 ∨ i.kind = 9) ∧ i.len ≠ 0))) ∧
    (t.errcode = 2 ↔ i.op = 0b01#2 ∧ 1048560 < i.len) ∧
    (t.errcode = 5 ↔ i.op = 0b01#2 ∧ 65536 < i.len ∧ i.len ≤ 1048560) ∧
    (t.errcode = 3 ↔ ∃ c, s.cfg.outCap = some c ∧
      ((i.op = 0b00#2 ∧ ((i.kind = 0 ∧ i.len ≤ 252) ∨ (i.kind = 1 ∧ i.len ≤ 16) ∨
          ((i.kind = 5 ∨ i.kind = 9) ∧ i.len = 0)) ∧ c < 11 + 2 * i.len) ∨
       (i.op = 0b01#2 ∧ i.len ≤ 65536 ∧ c < 43 + 11 * ceil16 i.len + 2 * i.len) ∨
       (i.op = 0b10#2 ∧
          c < ceil16 i.len * s.cfg.asmPrefix.length + 5 * i.len - ceil16 i.len))) ∧
    t.errcode ≠ 7 ∧ (t.phase = .err ↔ t.errcode ≠ 0) ∧ t.out = []

/-- Tier 1. `REC.S0`, `REC.S1`, `REC.S5`, `REC.S9`: a legal length that fits is accepted into `PHASE = REC`, a length outside
the table raises `PayloadLengthRange` (R104). -/
def Obligations.RecordFormsTakeTheirLegalLengths : Prop :=
  ∀ f ∈ recordForms, ∀ (a : Address) (l : Nat) (s : State), Ready s → l < 2 ^ s.cfg.lenW →
    (l ≤ f.2.2 → Fits s.cfg (11 + 2 * l) →
      exec (f.1 a l) s = .next (afterAccept 0b00#2 f.2.1 a l .record 0 s)) ∧
    (f.2.2 < l → TakesFault (f.1 a l) 4 s)

/-- Tier 1. The twelve other kinds take `UnsupportedRecordKind`, whatever the length (R109, R192). -/
def Obligations.IllegalKindsTakeTheirFault : Prop :=
  ∀ f ∈ illegalForms, ∀ (a : Address) (l : Nat) (s : State), Ready s → l < 2 ^ s.cfg.lenW →
    exec (f.1 a l) s = .next (afterAccept 0b00#2 f.2 a l .err 1 s) ∧ TakesFault (f.1 a l) 1 s

/-- Tier 1. The reserved operation takes `IllegalOperation`, whatever the other fields hold (R197). -/
def Obligations.ReservedOperationTakesItsFault : Prop :=
  ∀ (k : BitVec 4) (a : Address) (l : Nat) (s : State), Ready s → l < 2 ^ s.cfg.lenW →
    exec (.op3 k a l) s = .next (afterAccept 0b11#2 k a l .err 6 s) ∧ TakesFault (.op3 k a l) 6 s

/-- Tier 1. `SREC` by its length: the count, then the address, then the capacity, else `PHASE = HDR`; `KIND` and `ADDR` do not
matter (R131, R140, R141). -/
def Obligations.SrecIsAcceptedByItsLength : Prop :=
  ∀ (k : BitVec 4) (a : Address) (l : Nat) (s : State), Ready s → l < 2 ^ s.cfg.lenW →
    (1048560 < l → TakesFault (.srec k a l) 2 s) ∧
    (65536 < l → l ≤ 1048560 → TakesFault (.srec k a l) 5 s) ∧
    (l ≤ 65536 → ¬ Fits s.cfg (43 + 11 * ceil16 l + 2 * l) → TakesFault (.srec k a l) 3 s) ∧
    (l ≤ 65536 → Fits s.cfg (43 + 11 * ceil16 l + 2 * l) →
      exec (.srec k a l) s = .next (afterAccept 0b01#2 k a l .hdr 0 s))

/-- Tier 1. `ASM` has one check, the capacity; any length that fits is accepted into `PHASE = ASM` (R161). -/
def Obligations.AsmIsAcceptedIfItFits : Prop :=
  ∀ (k : BitVec 4) (a : Address) (l : Nat) (s : State), Ready s → l < 2 ^ s.cfg.lenW →
    (¬ Fits s.cfg (ceil16 l * s.cfg.asmPrefix.length + 5 * l - ceil16 l) →
      TakesFault (.asm k a l) 3 s) ∧
    (Fits s.cfg (ceil16 l * s.cfg.asmPrefix.length + 5 * l - ceil16 l) →
      exec (.asm k a l) s = .next (afterAccept 0b10#2 k a l .asm 0 s))

/-- Tier 1. A `Start` while `BUSY` changes nothing and records nothing (R186). -/
def Obligations.StartWhileBusyIsIgnored : Prop :=
  ∀ (i : Instr) (s : State), s.resetSeen = true → s.busy = true → i.wf s.cfg.lenW = true → exec i s = .next s

/-- Tier 2. The frame of every command: the scratch registers, the parameters, every byte of `IN`, the moves to come and the
model's counters are as before; the registers of R184, `ERRCODE`, `PHASE`, the hidden fields and `RX` are what may change. -/
def Obligations.CommandFrame : Prop :=
  ∀ (i : Instr) (s t : State), exec i s = .next t →
    t.bcnt = s.bcnt ∧ t.sum = s.sum ∧ t.cfg = s.cfg ∧ (∀ x, Memory.read t.input x = Memory.read s.input x) ∧
    t.moves = s.moves ∧ t.moveCount = s.moveCount ∧ t.resetSeen = s.resetSeen

/-- Tier 2. An accepted command leaves no trace of what ran before: two ready states with the same parameters agree after it on
everything but the scratch registers, `IN` and the moves; so `ERR` and `DONE` are left alike (R111, R198, R221). -/
def Obligations.AcceptForgetsTheEarlierOperation : Prop :=
  ∀ (i : Instr) (s s' : State), Ready s → Ready s' → s'.cfg = s.cfg → i.wf s.cfg.lenW = true → ∃ t, exec i s = .next t ∧
    exec i s' = .next { t with
      bcnt := s'.bcnt, sum := s'.sum, input := s'.input, moves := s'.moves, moveCount := s'.moveCount }

/-! ## The output formats -/

/-- Tier 2. `hexdig` is `'0' + n` up to 9 and `'A' + (n - 10)` from 10 on; `hex2` and `hex4` put the high nibble and the high
address byte first, and the digits determine the value (R77 to R79). -/
def Obligations.HexFieldsAreBigEndian : Prop :=
  (∀ n : BitVec 4,
    (n.toNat ≤ 9 → (hexdig n).toNat = 0x30 + n.toNat) ∧ (10 ≤ n.toNat → (hexdig n).toNat = 0x41 + (n.toNat - 10))) ∧
  (∀ b : Byte, ∃ h l : BitVec 4, hex2 b = [hexdig h, hexdig l] ∧ b.toNat = 16 * h.toNat + l.toNat) ∧
  (∀ a : Address, ∃ h l : Byte, hex4 a = hex2 h ++ hex2 l ∧ a.toNat = 256 * h.toNat + l.toNat) ∧
  (∀ b b' : Byte, hex2 b = hex2 b' → b = b') ∧ (∀ a a' : Address, hex4 a = hex4 a' → a = a')

/-- Tier 2. Every field of a record line stands at the position R76 gives it. -/
def Obligations.RecordLineFieldsStandInOrder : Prop :=
  ∀ (k : BitVec 4) (a : Address) (p : List Byte), p.length ≤ 252 →
    let line := recordLine k a p
    line.take 2 = [0x53#8, hexdig k] ∧
    (line.drop 2).take 2 = hex2 (BitVec.ofNat 8 (p.length + 3)) ∧
    (line.drop 4).take 4 = hex4 a ∧
    (∀ i b, p[i]? = some b → (line.drop (8 + 2 * i)).take 2 = hex2 b) ∧
    (line.drop (8 + 2 * p.length)).take 2 =
      hex2 (BitVec.ofNat 8 (0xFF - (p.length + 3 + (addrHi a).toNat + (addrLo a).toNat + byteSum p) % 256)) ∧
    line.drop (10 + 2 * p.length) = [0x0A#8]

/-- Tier 2. A record line has `11 + 2N` characters, `2*bc + 5` by its own byte-count field (R81). -/
def Obligations.RecordLineLength : Prop :=
  ∀ (k : BitVec 4) (a : Address) (p : List Byte), p.length ≤ 252 →
    (recordLine k a p).length = 11 + 2 * p.length ∧
    (∃ bc : Byte, ((recordLine k a p).drop 2).take 2 = hex2 bc ∧ (recordLine k a p).length = 2 * bc.toNat + 5) ∧
    (p.length = 0 → (recordLine k a p).length = 11) ∧
    (p.length = 16 → (recordLine k a p).length = 43) ∧
    (p.length = 5 → (recordLine k a p).length = 21) ∧
    (p.length = 252 → (recordLine k a p).length = 515)

/-- Tier 2. The checksum identity, on the checksum byte the line prints (R102). -/
def Obligations.ChecksumIdentity : Prop :=
  ∀ (k : BitVec 4) (a : Address) (p : List Byte), p.length ≤ 252 →
    ∃ bc ck : Byte, ((recordLine k a p).drop 2).take 2 = hex2 bc ∧
      ((recordLine k a p).drop (8 + 2 * p.length)).take 2 = hex2 ck ∧
      (bc.toNat + (addrHi a).toNat + (addrLo a).toNat + byteSum p + ck.toNat) % 256 = 0xFF

/-- Tier 2. A record line holds `S`, digits and capitals only, and its one newline is its end (R57, R113). -/
def Obligations.RecordLineAlphabet : Prop :=
  ∀ (k : BitVec 4) (a : Address) (p : List Byte),
    (∃ body, recordLine k a p = body ++ [0x0A#8] ∧
      ∀ c ∈ body, c = 0x53#8 ∨ (0x30 ≤ c.toNat ∧ c.toNat ≤ 0x39) ∨ (0x41 ≤ c.toNat ∧ c.toNat ≤ 0x46))

/-- Tier 2. No two records have the same line: kind, address and payload can be read back from it (R76, R103). -/
def Obligations.RecordLineDeterminesItsFields : Prop :=
  ∀ (k k' : BitVec 4) (a a' : Address) (p p' : List Byte), p.length ≤ 252 → p'.length ≤ 252 →
    recordLine k a p = recordLine k' a' p' → k = k' ∧ a = a' ∧ p = p'

/-- Tier 2. The datapath's register-level line building appends exactly `Line(k, a, P)` and leaves the count in `BCNT`, the low
byte of the sum in `SUM`, and everything else as it was (R112). -/
def Obligations.DatapathBuildsTheLine : Prop :=
  ∀ (k : BitVec 4) (a : Address) (p : List Byte) (s : State), p.length ≤ 252 →
    buildLine k a p s =
      { s with
        out := s.out ++ recordLine k a p
        bcnt := BitVec.ofNat 8 (p.length + 3)
        sum := recordSum a p }

/-- Tier 2. A listing line: the prefix, the tokens five characters apart with comma and space between, one newline at the end
(R82, R163). -/
def Obligations.ListingLineFieldsStandInOrder : Prop :=
  ∀ (pre : Text) (g : List Byte), 1 ≤ g.length → g.length ≤ 16 →
    let line := asmLine pre g
    line.take pre.length = pre ∧
    (∀ i b, g[i]? = some b → (line.drop (pre.length + 5 * i)).take 3 = 0x24#8 :: hex2 b) ∧
    (∀ i, i + 1 < g.length → (line.drop (pre.length + 5 * i + 3)).take 2 = [0x2C#8, 0x20#8]) ∧
    line.drop (pre.length + 5 * g.length - 2) = [0x0A#8] ∧
    line.length = pre.length + 5 * g.length - 1

/-- Tier 2. The length of an `SREC` text is the figure the capacity check uses, and it has `R + 3` lines (R136, R143). -/
def Obligations.SrecTextLength : Prop :=
  ∀ (cfg : Config) (b : List Byte), b.length ≤ 65536 →
    (srecText cfg b).length = 43 + 11 * ceil16 b.length + 2 * b.length ∧
    (srecText cfg b).count 0x0A#8 = ceil16 b.length + 3

/-- Tier 2. The length of a listing is the figure the capacity check uses, and with a prefix without newline it has `R` lines
(R164). -/
def Obligations.AsmTextLength : Prop :=
  ∀ (cfg : Config) (b : List Byte),
    (asmText cfg b).length = ceil16 b.length * cfg.asmPrefix.length + 5 * b.length - ceil16 b.length ∧
    (cfg.prefixNoNewline = true → (asmText cfg b).count 0x0A#8 = ceil16 b.length)

/-- Tier 2. The chunk law: full chunks but possibly the last, none empty, together the buffer, in order (R137). -/
def Obligations.ChunkLaw : Prop :=
  ∀ b : List Byte, b ≠ [] →
    (∀ i, i + 1 < ceil16 b.length → (chunk b i).length = 16) ∧
    (chunk b (ceil16 b.length - 1)).length = b.length - 16 * (ceil16 b.length - 1) ∧
    b.length - 16 * (ceil16 b.length - 1) = (if b.length % 16 = 0 then 16 else b.length % 16) ∧
    (∀ i, i < ceil16 b.length → chunk b i ≠ []) ∧
    (List.range (ceil16 b.length)).flatMap (chunk b) = b

/-- Tier 1. The empty buffer: three records of 43 characters, the last two constant, and an empty listing (R138, R165). -/
def Obligations.EmptyInputTexts : Prop :=
  ∀ cfg : Config,
    srecText cfg [] = headerLine cfg ++
      [0x53#8, 0x35#8, 0x30#8, 0x33#8, 0x30#8, 0x30#8, 0x30#8, 0x30#8, 0x46#8, 0x43#8, 0x0A#8] ++ terminatorLine ∧
    (srecText cfg []).length = 43 ∧ asmText cfg [] = []

/-! ## The block steps -/

/-- Tier 2. `step REC`: once the payload is read, one line is appended and the step waits for the sink; the traversal registers
and `ERRCODE` stay (R110; the wait is log 7). -/
def Obligations.RecordStepEmitsItsLine : Prop :=
  ∀ s : State, Inv s → s.phase = .record → s.draining = false → s.got.length = s.len →
    perform .blockStep s = .next { s with
      out := s.out ++ recordLine s.kind s.addr (buffer s)
      bcnt := BitVec.ofNat 8 (s.len + 3)
      sum := recordSum s.addr (buffer s)
      got := []
      draining := true }

/-- Tier 2. `step HDR`: the header line of 21 characters, then `PHASE = DATA`; `IN` is not read (R132). -/
def Obligations.HeaderStepEmitsTheTag : Prop :=
  ∀ s : State, s.resetSeen = true → s.phase = .hdr →
    perform .blockStep s = .next { s with
      out := s.out ++ recordLine 0#4 0x0000#16 s.cfg.hdrTag.bytes
      bcnt := 8
      sum := recordSum 0 s.cfg.hdrTag.bytes
      phase := .data } ∧
    (recordLine 0#4 0x0000#16 s.cfg.hdrTag.bytes).length = 21

/-- Tier 2. `step DATA`: the exit when nothing remains; otherwise, once the chunk is read, one data record at the offset before
the advance, and the three counters move exactly (R133). -/
def Obligations.DataStepEmitsOneChunk : Prop :=
  ∀ s : State, Inv s → s.phase = .data →
    (s.remaining = 0 → perform .blockStep s = .next { s with phase := .cnt }) ∧
    (s.remaining ≠ 0 → s.got.length = min 16 s.remaining →
      ∃ t, perform .blockStep s = .next t ∧
        t.out = s.out ++ recordLine 1#4 (BitVec.ofNat 16 s.offset) (inSlice s s.offset (min 16 s.remaining)) ∧
        (BitVec.ofNat 16 s.offset).toNat = s.offset ∧
        t.offset = s.offset + min 16 s.remaining ∧
        t.remaining + min 16 s.remaining = s.remaining ∧
        t.reccnt.toNat = s.reccnt.toNat + 1 ∧
        t = { s with out := t.out, offset := t.offset, remaining := t.remaining, reccnt := t.reccnt,
                     bcnt := t.bcnt, sum := t.sum, got := [] })

/-- Tier 2. `step CNT`: one count record whose address field is the number of data records, 11 characters, then `PHASE = TERM`
(R134, R142). -/
def Obligations.CountStepEmitsTheRecordCount : Prop :=
  ∀ s : State, Inv s → s.phase = .cnt →
    s.reccnt.toNat = ceil16 s.len ∧
    (recordLine 5#4 s.reccnt []).length = 11 ∧
    perform .blockStep s = .next { s with
      out := s.out ++ recordLine 5#4 s.reccnt []
      bcnt := 3
      sum := recordSum s.reccnt []
      phase := .term }

/-- Tier 2. `step TERM`: the constant line `S9030000FC`, then the wait for the sink; `OFFSET = LEN`, `REMAINING = 0` and
`RECCNT = ceil16(LEN)` stand (R135; the wait is log 7). -/
def Obligations.TerminatorStepEmitsTheConstantLine : Prop :=
  ∀ s : State, Inv s → s.phase = .term → s.draining = false →
    s.offset = s.len ∧ s.remaining = 0 ∧ s.reccnt.toNat = ceil16 s.len ∧
    perform .blockStep s = .next { s with
      out := s.out ++ terminatorLine
      bcnt := 3
      sum := 3
      draining := true }

/-- Tier 2. `step ASM`: the exit once nothing remains and the sink has everything; otherwise, once the group is read, one
listing line; `RECCNT`, `BCNT` and `SUM` are not touched (R162, R63). -/
def Obligations.AsmStepEmitsOneGroup : Prop :=
  ∀ s : State, Inv s → s.phase = .asm →
    (s.remaining = 0 → s.sent = s.out.length → perform .blockStep s = .next { s with phase := .done }) ∧
    (s.remaining ≠ 0 → s.got.length = min 16 s.remaining →
      ∃ t, perform .blockStep s = .next t ∧
        t.out = s.out ++ asmLine s.cfg.asmPrefix (inSlice s s.offset (min 16 s.remaining)) ∧
        t.offset = s.offset + min 16 s.remaining ∧
        t.remaining + min 16 s.remaining = s.remaining ∧
        t = { s with out := t.out, offset := t.offset, remaining := t.remaining, got := [] })

/-- Tier 2. The block waits without a timeout, and waiting changes nothing: for the source while a byte is requested, for the
sink while the last line is not taken (R219, R223). -/
def Obligations.WaitingChangesNothing : Prop :=
  ∀ s : State, s.resetSeen = true →
    (inRe s = true → perform .blockStep s = .next s) ∧
    (s.phase = .record ∨ s.phase = .term → s.draining = true → perform .blockStep s = .next s) ∧
    (s.phase = .asm → s.remaining = 0 → s.sent ≠ s.out.length → perform .blockStep s = .next s) ∧
    (s.busy = false → perform .blockStep s = .next s)

/-! ## The host's moves -/

/-- Tier 2. `Take`: one character, in order, to the sink; the last one of a waiting step ends the operation; nothing where none
is offered (R188, R63; the end of the wait is log 7). -/
def Obligations.TakeHandsOverOneCharacter : Prop :=
  ∀ s : State, Inv s →
    (∀ c, s.out[s.sent]? = some c →
      perform .take s = .next (if s.draining = true ∧ s.sent + 1 = s.out.length then
        { s with sent := s.sent + 1, rx := s.rx ++ [c], phase := .done, draining := false }
        else { s with sent := s.sent + 1, rx := s.rx ++ [c] })) ∧
    (s.sent = s.out.length → perform .take s = .next s)

/-- Tier 2. `Supply`: the requested byte, below `LEN`, at the next offset of the line in progress; nothing where none is
requested (R52, R53, R188). -/
def Obligations.SupplyReadsTheNextByte : Prop :=
  ∀ s : State, Inv s →
    (inRe s = true →
      inOffset s < s.len ∧ (outPorts s).inAddr = lineBase s + s.got.length ∧
      perform .supply s = .next { s with got := s.got ++ [Memory.read s.input (lineBase s + s.got.length)] }) ∧
    (inRe s = false → perform .supply s = .next s)

/-- Tier 2. The host changes one byte of `IN` while the block is not `BUSY`, and nothing else; while `BUSY` it has no such move;
reading the status changes nothing (R181, R215; log 11). -/
def Obligations.HostOwnsTheInput : Prop :=
  ∀ (s : State) (a : Nat) (b : Byte), s.resetSeen = true →
    (s.busy = false → a < 2 ^ s.cfg.lenW → Memory.wf s.cfg.lenW s.input = true → ∃ t, perform (.setInput a b) s = .next t ∧
      (∀ x, Memory.read t.input x = if x = a then b else Memory.read s.input x) ∧
      Memory.wf s.cfg.lenW t.input = true ∧ t = { s with input := t.input }) ∧
    (s.busy = true → perform (.setInput a b) s = .refused .inputChangedWhileBusy) ∧
    perform .readStatus s = .next s

/-! ## Whole-machine rules -/

/-- Tier 1. The invariants hold right after reset (R32, R34). The last clause, that `IN` is in canonical form there, is the
model's choice: the canonical form is log 8, and that `State.reset` lists no byte of `IN` is log 9. -/
def Obligations.InvariantsHoldAtReset : Prop :=
  Inv State.reset ∧ TextInv State.reset ∧ Memory.wf State.reset.cfg.lenW State.reset.input = true

/-- Tier 3. Every step keeps the invariants of R32, with what the accept checks and the hidden fields add. -/
def Obligations.EveryStepKeepsTheInvariants : Prop :=
  ∀ s t : State, Inv s → step s = .next t → Inv t

/-- Tier 3. Every step keeps the text invariant: whatever the interleaving, `OUT` holds exactly the lines of the phases so far
(R83, R132 to R136, R162, R164). -/
def Obligations.EveryStepKeepsTheText : Prop :=
  ∀ s t : State, Inv s → TextInv s → step s = .next t → TextInv t

/-- Tier 3. However the moves interleave, the step that enters `DONE` leaves the operation's whole text in `OUT`, all of it with
the sink, no error code, and the buffer it rendered unchanged (R6, R63, R130, R182, R225). -/
def Obligations.DoneMeansTheWholeText : Prop :=
  ∀ s t : State, Inv s → TextInv s → s.busy = true → step s = .next t → t.phase = .done →
    t.out = finalText s ∧ t.rx = finalText s ∧ t.sent = (finalText s).length ∧ t.errcode = 0 ∧ t.input = s.input ∧
    t.out.length = opLength s

/-- Tier 2. Every step keeps the input buffer in canonical form (R50; log 8). -/
def Obligations.EveryStepKeepsTheInputCanonical : Prop :=
  ∀ s t : State, Memory.wf s.cfg.lenW s.input = true → step s = .next t → Memory.wf t.cfg.lenW t.input = true

/-- Tier 2. The phase graph: the only transfers there are, with the move that makes each. `Reset` goes to `IDLE`; an accepted
`Start` to its first phase or, where a check fails, to `ERR`; the block's own step makes `HDR` to `DATA`, `DATA` to `CNT`,
`CNT` to `TERM` and the exit of `ASM` (R145, R162). That `REC` and `TERM` reach `DONE` in the `Take` of the last character is
the model's form of R63 (log 7). -/
def Obligations.PhaseGraph : Prop :=
  ∀ s t : State, Inv s → step s = .next t →
    t.phase = s.phase ∨
    (t.phase = .idle ∧ ∃ p more, s.moves = .rst p :: more) ∨
    (s.busy = false ∧ ∃ c more, s.moves = .start c :: more ∧
      ((check s.cfg c.op c.kind c.len ≠ none ∧ t.phase = .err) ∨
       (check s.cfg c.op c.kind c.len = none ∧
        ((c.op = 0b00#2 ∧ t.phase = .record) ∨ (c.op = 0b01#2 ∧ t.phase = .hdr) ∨ (c.op = 0b10#2 ∧ t.phase = .asm))))) ∨
    (s.phase = .hdr ∧ t.phase = .data ∧ BlockMoves s) ∨
    (s.phase = .data ∧ s.remaining = 0 ∧ t.phase = .cnt ∧ BlockMoves s) ∨
    (s.phase = .cnt ∧ t.phase = .term ∧ BlockMoves s) ∨
    (s.phase = .asm ∧ s.remaining = 0 ∧ t.phase = .done ∧ t.sent = t.out.length ∧ BlockMoves s) ∨
    ((s.phase = .record ∨ s.phase = .term) ∧ s.draining = true ∧ t.phase = .done ∧ t.sent = t.out.length ∧
      ∃ more, s.moves = .take :: more)

/-- Tier 2. The command registers and `ERRCODE` are written by an accepted `Start`, all together and from the ports, or by
`Reset`, and by nothing else (R21, R24). -/
def Obligations.CommandRegistersAreWrittenAtAccept : Prop :=
  ∀ s t : State, step s = .next t →
    (t.op = s.op ∧ t.kind = s.kind ∧ t.addr = s.addr ∧ t.len = s.len ∧ t.errcode = s.errcode) ∨
    (∃ p more, s.moves = .rst p :: more) ∨
    (∃ c more, s.moves = .start c :: more ∧ s.busy = false ∧
      t.op = c.cmdw.extractLsb' 4 2 ∧ t.kind = c.cmdw.extractLsb' 0 4 ∧ t.addr = c.addr ∧ t.len = c.len)

/-- Tier 2. The parameters never change, and `IN` changes only by the host's move outside `BUSY` (R29, R51, R66, R220). -/
def Obligations.InputAndParametersAreTheHosts : Prop :=
  ∀ s t : State, step s = .next t →
    t.cfg = s.cfg ∧ (t.input = s.input ∨ (s.busy = false ∧ ∃ a b more, s.moves = .setInput a b :: more))

/-- Tier 2. Within an operation `OUT` only grows, by whole lines: no character in it is removed, changed or reordered
(R54, R55). -/
def Obligations.OutputIsAppendOnly : Prop :=
  ∀ s t : State, s.busy = true → step s = .next t → (∀ p more, s.moves ≠ .rst p :: more) →
    ∃ line, t.out = s.out ++ line ∧ (line = [] ∨ line.getLast? = some 0x0A#8)

/-- Tier 2. Nothing stops the machine but a change of `IN` while `BUSY`, and a `LEN` or an offset that `LEN_W` bits do not hold:
no block step, transfer, read, command or reset is a fault or a refusal (R52, R203, R215; logs 5 and 11). -/
def Obligations.NoMoveStopsTheMachine : Prop :=
  ∀ (m : Move) (s : State), Inv s →
    (∃ t, perform m s = .next t) ∨ (s.busy = true ∧ ∃ a b, m = .setInput a b) ∨
    (∃ c, m = .start c ∧ 2 ^ s.cfg.lenW ≤ c.len) ∨ (∃ a b, m = .setInput a b ∧ 2 ^ s.cfg.lenW ≤ a)

/-- Tier 3. Progress: in `BUSY` every block step, transfer and read either makes exactly one of the moves the operation has left
or waits and changes nothing, and the move of a prompt host always makes one (R144, R223). -/
def Obligations.EveryMoveIsProgressOrWaiting : Prop :=
  ∀ s : State, Inv s → TextInv s → s.busy = true →
    (∀ m, m = .blockStep ∨ m = .take ∨ m = .supply →
      ∃ t, perform m s = .next t ∧ (t = s ∨ workLeft t + 1 = workLeft s)) ∧
    (∃ t, perform (promptMove s) s = .next t ∧ workLeft t + 1 = workLeft s)

/-! ## Whole operations -/

/-- Tier 3. The four forms of `REC` from accept to `DONE` with a prompt host: one block step, `LEN` reads and `11 + 2*LEN`
transfers, and the text is the line of the kind, the address and the payload (R105 to R108, R110, R223). -/
def Obligations.RecordRunsToItsLine : Prop :=
  ∀ f ∈ recordForms, ∀ (a : Address) (l : Nat) (s : State),
    Ready s → l < 2 ^ s.cfg.lenW → l ≤ f.2.2 → Fits s.cfg (11 + 2 * l) →
    ∃ t u, exec (f.1 a l) s = .next t ∧ promptRun (1 + l + (11 + 2 * l)) t = .next u ∧
      u.phase = .done ∧ u.errcode = 0 ∧ u.out = recordLine f.2.1 a (inSlice s 0 l) ∧ u.rx = u.out ∧
      u.offset = 0 ∧ u.remaining = l ∧ u.reccnt = 0 ∧ u.input = s.input

/-- Tier 3. `SREC` from accept to `DONE` with a prompt host: `ceil16(LEN) + 4` block steps, `LEN` reads, one transfer a
character, and the text is `SrecText` of the buffer (R130, R135, R136, R144, R223). -/
def Obligations.SrecRunsToItsText : Prop :=
  ∀ (k : BitVec 4) (a : Address) (l : Nat) (s : State),
    Ready s → l < 2 ^ s.cfg.lenW → l ≤ 65536 → Fits s.cfg (43 + 11 * ceil16 l + 2 * l) →
    ∃ t u, exec (.srec k a l) s = .next t ∧
      promptRun (ceil16 l + 4 + l + (43 + 11 * ceil16 l + 2 * l)) t = .next u ∧
      u.phase = .done ∧ u.errcode = 0 ∧ u.out = srecText s.cfg (inSlice s 0 l) ∧ u.rx = u.out ∧
      u.offset = l ∧ u.remaining = 0 ∧ u.reccnt.toNat = ceil16 l ∧ u.input = s.input

/-- Tier 3. `ASM` from accept to `DONE` with a prompt host: `ceil16(LEN) + 1` block steps, `LEN` reads, one transfer a
character, and the text is `AsmText` of the buffer, for every length (R160, R162, R164, R223). -/
def Obligations.AsmRunsToItsListing : Prop :=
  ∀ (k : BitVec 4) (a : Address) (l : Nat) (s : State),
    Ready s → l < 2 ^ s.cfg.lenW → Fits s.cfg (ceil16 l * s.cfg.asmPrefix.length + 5 * l - ceil16 l) →
    ∃ t u, exec (.asm k a l) s = .next t ∧
      promptRun (ceil16 l + 1 + l +
        (ceil16 l * s.cfg.asmPrefix.length + 5 * l - ceil16 l)) t = .next u ∧
      u.phase = .done ∧ u.errcode = 0 ∧ u.out = asmText s.cfg (inSlice s 0 l) ∧ u.rx = u.out ∧
      u.offset = l ∧ u.remaining = 0 ∧ u.reccnt = 0 ∧ u.input = s.input

/-! ## The width of the parameter `LEN_W` -/

/-- Tier 1. What `LEN_W` bits do not hold reaches no port and no byte of `IN`: a command with such a `LEN`, and a change of `IN`
at such an offset, is refused by name, whatever `LEN_W` is (R7, R50, R70; the refusal is the model's, log 5). -/
def Obligations.WiderThanLenWIsRefusedByName : Prop :=
  (∀ (i : Instr) (s : State), s.resetSeen = true → (i.wf s.cfg.lenW = true ↔ i.len < 2 ^ s.cfg.lenW) ∧
    (2 ^ s.cfg.lenW ≤ i.len → exec i s = .refused .widerThanLenW)) ∧
  (∀ (a : Nat) (b : Byte) (s : State), s.resetSeen = true → s.busy = false → 2 ^ s.cfg.lenW ≤ a →
    perform (.setInput a b) s = .refused .widerThanLenW)
end

