-- ==== Sys2Proof/Laws/Decode.lean ====
section
/-! SUPPORT. The small lemmas of the byte image of a command (log 13): numbers and their bytes. -/

namespace Sys2Proof

@[simp] theorem length_bytesOfNat (k n : Nat) : (bytesOfNat k n).length = k := by
  induction k generalizing n with
  | zero => rfl
  | succ k ih => simp [bytesOfNat, ih]

/-- The bytes of a number give back its low `k` bytes. -/
theorem natOfBytes_bytesOfNat (k n : Nat) : natOfBytes (bytesOfNat k n) = n % 256 ^ k := by
  induction k generalizing n with
  | zero => simp [bytesOfNat, natOfBytes, Nat.mod_one]
  | succ k ih => simp [bytesOfNat, natOfBytes, ih, Nat.pow_succ', Nat.mod_mul]

/-- A list of bytes is the bytes of its number. -/
theorem bytesOfNat_natOfBytes (bs : List Byte) : bytesOfNat bs.length (natOfBytes bs) = bs := by
  induction bs with
  | nil => rfl
  | cons b bs ih =>
    have hb := b.isLt
    have hd : (b.toNat + 256 * natOfBytes bs) / 256 = natOfBytes bs := by omega
    have hm : BitVec.ofNat 8 (b.toNat + 256 * natOfBytes bs) = b := by
      apply BitVec.eq_of_toNat_eq
      simp; omega
    simp only [List.length_cons, natOfBytes, bytesOfNat, hd, hm, ih]

/-- The bytes of `LEN` have room for every value of `LEN_W` bits. -/
theorem two_pow_le_lenBytes (w : Nat) : 2 ^ w ≤ 256 ^ lenBytes w := by
  have h : (256 : Nat) ^ lenBytes w = 2 ^ (8 * lenBytes w) := by rw [Nat.pow_mul]
  rw [h]
  exact Nat.pow_le_pow_right (by decide) (by unfold lenBytes; omega)

/-- A value of `LEN_W` bits is read back from its bytes. -/
theorem natOfBytes_lenBytes {w l : Nat} (h : l < 2 ^ w) : natOfBytes (bytesOfNat (lenBytes w) l) = l := by
  rw [natOfBytes_bytesOfNat]
  exact Nat.mod_eq_of_lt (Nat.lt_of_lt_of_le h (two_pow_le_lenBytes w))

end Sys2Proof
end

