-- ==== Sys2Proof/Laws/Memory.lean ====
section
/-! SUPPORT. The laws of the input buffer: read after write, and the canonical form is kept. -/

namespace Sys2Proof.Machine

@[simp] theorem Memory.read_nil (a : Nat) : Memory.read [] a = unlistedByte := rfl

@[simp] theorem Memory.read_cons_cell (k : Nat) (v : Byte) (m : Memory) (a : Nat) :
    Memory.read ((k, v) :: m) a = if k = a then v else Memory.read m a := rfl

/-- Below the first listed address nothing is listed. -/
theorem Memory.read_below {w lo a : Nat} {m : Memory} (h : Memory.wfFrom w lo m) (ha : a < lo) :
    Memory.read m a = unlistedByte := by
  induction m generalizing lo with
  | nil => rfl
  | cons c m ih =>
    obtain ⟨k, v⟩ := c
    simp only [Memory.wfFrom, Bool.and_eq_true, decide_eq_true_eq] at h
    have hk : k ≠ a := by omega
    simp [hk, ih h.2 (by omega)]

theorem Memory.read_cons {m : Memory} {a x : Nat} {b : Byte} (h : x = a → Memory.read m a = unlistedByte) :
    Memory.read (Memory.cons a b m) x = if x = a then b else Memory.read m x := by
  unfold Memory.cons
  split
  · next hb =>
    split
    · next hx => subst hx; rw [h rfl, hb]
    · rfl
  · simp [eq_comm]

/-- The one spec of `Memory.write` for readers: the byte written is read back and every other byte is as before. -/
theorem Memory.read_write {w lo : Nat} {m : Memory} (h : Memory.wfFrom w lo m) (a : Nat) (b : Byte) (x : Nat) :
    Memory.read (Memory.write m a b) x = if x = a then b else Memory.read m x := by
  induction m generalizing lo with
  | nil => exact Memory.read_cons (fun _ => rfl)
  | cons c m ih =>
    obtain ⟨k, v⟩ := c
    have h' := h
    simp only [Memory.wfFrom, Bool.and_eq_true, decide_eq_true_eq] at h'
    unfold Memory.write
    split
    · next hlt =>
      refine Memory.read_cons (fun _ => ?_)
      have hk : k ≠ a := by omega
      rw [Memory.read_cons_cell, if_neg hk]
      exact Memory.read_below h'.2 (Nat.lt_succ_of_lt hlt)
    · split
      · next hnlt heq =>
        subst heq
        rw [Memory.read_cons (fun _ => Memory.read_below h'.2 (by omega))]
        by_cases hx : x = a
        · simp [hx]
        · have : a ≠ x := fun e => hx e.symm
          simp [hx, this]
      · next hnlt hne =>
        by_cases hx : x = a
        · subst hx
          have : k ≠ x := fun e => hne e.symm
          simp [this, ih h'.2]
        · by_cases hk : k = x <;> simp [hk, hx, ih h'.2]

theorem Memory.wfFrom_mono {w lo lo' : Nat} {m : Memory} (h : Memory.wfFrom w lo m) (hl : lo' ≤ lo) :
    Memory.wfFrom w lo' m := by
  cases m with
  | nil => rfl
  | cons c m =>
    obtain ⟨k, v⟩ := c
    simp only [Memory.wfFrom, Bool.and_eq_true, decide_eq_true_eq] at h ⊢
    exact ⟨⟨⟨by omega, h.1.1.2⟩, h.1.2⟩, h.2⟩

theorem Memory.wfFrom_cons {w lo a : Nat} {m : Memory} {b : Byte} (h : Memory.wfFrom w (a + 1) m) (hl : lo ≤ a)
    (ha : a < 2 ^ w) : Memory.wfFrom w lo (Memory.cons a b m) := by
  unfold Memory.cons
  split
  · exact Memory.wfFrom_mono h (by omega)
  · next hb => simp [Memory.wfFrom, hb, h, hl]; omega

theorem Memory.wfFrom_write {w lo a : Nat} {m : Memory} {b : Byte} (h : Memory.wfFrom w lo m) (hl : lo ≤ a)
    (ha : a < 2 ^ w) : Memory.wfFrom w lo (Memory.write m a b) := by
  induction m generalizing lo with
  | nil => exact Memory.wfFrom_cons (m := []) rfl hl ha
  | cons c m ih =>
    obtain ⟨k, v⟩ := c
    have h' := h
    simp only [Memory.wfFrom, Bool.and_eq_true, decide_eq_true_eq] at h'
    unfold Memory.write
    split
    · next hlt =>
      refine Memory.wfFrom_cons ?_ hl ha
      simp only [Memory.wfFrom, Bool.and_eq_true, decide_eq_true_eq]
      exact ⟨⟨⟨hlt, h'.1.1.2⟩, h'.1.2⟩, h'.2⟩
    · split
      · next _ heq => subst heq; exact Memory.wfFrom_cons h'.2 hl ha
      · next hnlt hne =>
        simp only [Memory.wfFrom, Bool.and_eq_true, decide_eq_true_eq]
        exact ⟨h'.1, ih h'.2 (by omega)⟩

/-- Every write of `IN` at an offset of `LEN_W` bits keeps the canonical form. -/
theorem Memory.wf_write {w : Nat} {m : Memory} (h : Memory.wf w m = true) {a : Nat} (ha : a < 2 ^ w) (b : Byte) :
    Memory.wf w (Memory.write m a b) = true :=
  Memory.wfFrom_write h (Nat.zero_le _) ha

/-- The input buffer of `State.reset` is in canonical form. -/
theorem Memory.wf_reset : Memory.wf State.reset.cfg.lenW State.reset.input = true := rfl

@[simp] theorem inSlice_length (s : State) (base n : Nat) : (inSlice s base n).length = n := by simp [inSlice]

@[simp] theorem inSlice_zero (s : State) (base : Nat) : inSlice s base 0 = [] := rfl

/-- One byte more at the end of a slice. -/
theorem inSlice_succ (s : State) (base n : Nat) :
    inSlice s base (n + 1) = inSlice s base n ++ [Memory.read s.input (base + n)] := by
  simp [inSlice, List.range_succ]

/-- A slice depends on nothing but `IN`. -/
theorem inSlice_congr {s t : State} (h : t.input = s.input) (base n : Nat) : inSlice t base n = inSlice s base n := by
  simp [inSlice, h]

@[simp] theorem buffer_length (s : State) : (buffer s).length = s.len := by simp [buffer]

/-- The buffer depends on nothing but `IN` and `LEN`. -/
theorem buffer_congr {s t : State} (h : t.input = s.input) (hl : t.len = s.len) : buffer t = buffer s := by
  simp [buffer, hl, inSlice_congr h]

end Sys2Proof.Machine
end

