-- ==== Sys2Proof/Laws/Format.lean ====
section
/-! SUPPORT. The small lemmas of the format definitions and of the status view: lengths, one line more, and the chunks of a
buffer as slices of `IN`. -/

namespace Sys2Proof.Machine

@[simp] theorem hex2_length (b : Byte) : (hex2 b).length = 2 := rfl

@[simp] theorem hex4_length (a : Address) : (hex4 a).length = 4 := rfl

@[simp] theorem flatMap_hex2_length (p : List Byte) : (p.flatMap hex2).length = 2 * p.length := by
  induction p with
  | nil => rfl
  | cons b p ih => simp [ih]; omega

/-- The sixteen digits are distinct (R77). -/
theorem hexdig_injective : ∀ n m : BitVec 4, hexdig n = hexdig m → n = m := by decide

/-- The two address bytes make the address (R79). -/
theorem addr_toNat (a : Address) : a.toNat = 256 * (addrHi a).toNat + (addrLo a).toNat := by
  have := a.isLt
  simp [addrHi, addrLo, BitVec.extractLsb'_toNat]
  omega

@[simp] theorem HdrTag.bytes_length (t : HdrTag) : t.bytes.length = 5 := rfl

@[simp] theorem asmTokens_cons_cons (b c : Byte) (g : List Byte) :
    asmTokens (b :: c :: g) = chDollar :: hex2 b ++ [chComma, chSpace] ++ asmTokens (c :: g) := rfl

@[simp] theorem chunk_length (b : List Byte) (i : Nat) : (chunk b i).length = min 16 (b.length - 16 * i) := by
  simp [chunk]

@[simp] theorem dataLines_zero (b : List Byte) : dataLines b 0 = [] := rfl

/-- One data record more (R133). -/
theorem dataLines_succ (b : List Byte) (n : Nat) :
    dataLines b (n + 1) = dataLines b n ++ recordLine 1#4 (BitVec.ofNat 16 (16 * n)) (chunk b n) := by
  simp [dataLines, List.range_succ]

@[simp] theorem asmLines_zero (pre : Text) (b : List Byte) : asmLines pre b 0 = [] := rfl

/-- One listing line more (R162). -/
theorem asmLines_succ (pre : Text) (b : List Byte) (n : Nat) :
    asmLines pre b (n + 1) = asmLines pre b n ++ asmLine pre (chunk b n) := by
  simp [asmLines, List.range_succ]

/-- A chunk of the buffer is a slice of `IN` (R52). -/
theorem chunk_buffer (s : State) (i : Nat) :
    chunk (buffer s) i = inSlice s (16 * i) (min 16 (s.len - 16 * i)) := by
  apply List.ext_getElem?
  intro j
  simp only [chunk, buffer, inSlice, List.getElem?_take, List.getElem?_drop, List.getElem?_map]
  by_cases h1 : j < 16 <;> by_cases h2 : 16 * i + j < s.len
  · rw [List.getElem?_range h2, List.getElem?_range (by omega)]; simp [h1]
  · rw [List.getElem?_eq_none (by simpa using h2), List.getElem?_eq_none (by simp; omega)]; simp
  · rw [List.getElem?_eq_none (l := List.range (min 16 _)) (by simp; omega)]; simp [h1]
  · rw [List.getElem?_eq_none (l := List.range (min 16 _)) (by simp; omega)]; simp [h1]

/-- `BUSY` is one of the six phases with a block step (R22). -/
theorem busy_iff (s : State) : s.busy = true ↔
    s.phase = .record ∨ s.phase = .hdr ∨ s.phase = .data ∨ s.phase = .cnt ∨ s.phase = .term ∨ s.phase = .asm := by
  unfold State.busy State.status
  cases s.phase <;> simp [Phase.status]

/-- Outside `BUSY` no block step is enabled (R182). -/
theorem not_busy_iff (s : State) : s.busy = false ↔ s.phase = .idle ∨ s.phase = .done ∨ s.phase = .err := by
  unfold State.busy State.status
  cases s.phase <;> simp [Phase.status]

end Sys2Proof.Machine
end

