-- ==== Sys2Proof/Laws/State.lean ====
section
/-! SUPPORT. One lemma per field per update of `State`, true by `rfl`, so that no proof unfolds a record update. -/

namespace Sys2Proof.Machine

variable (s : State)

/-! `State.setPhase` -/

@[simp] theorem State.setPhase_op (p : Phase) : (s.setPhase p).op = s.op := rfl
@[simp] theorem State.setPhase_kind (p : Phase) : (s.setPhase p).kind = s.kind := rfl
@[simp] theorem State.setPhase_addr (p : Phase) : (s.setPhase p).addr = s.addr := rfl
@[simp] theorem State.setPhase_len (p : Phase) : (s.setPhase p).len = s.len := rfl
@[simp] theorem State.setPhase_phase (p : Phase) : (s.setPhase p).phase = p := rfl
@[simp] theorem State.setPhase_errcode (p : Phase) : (s.setPhase p).errcode = s.errcode := rfl
@[simp] theorem State.setPhase_offset (p : Phase) : (s.setPhase p).offset = s.offset := rfl
@[simp] theorem State.setPhase_remaining (p : Phase) : (s.setPhase p).remaining = s.remaining := rfl
@[simp] theorem State.setPhase_reccnt (p : Phase) : (s.setPhase p).reccnt = s.reccnt := rfl
@[simp] theorem State.setPhase_bcnt (p : Phase) : (s.setPhase p).bcnt = s.bcnt := rfl
@[simp] theorem State.setPhase_sum (p : Phase) : (s.setPhase p).sum = s.sum := rfl
@[simp] theorem State.setPhase_out (p : Phase) : (s.setPhase p).out = s.out := rfl
@[simp] theorem State.setPhase_sent (p : Phase) : (s.setPhase p).sent = s.sent := rfl
@[simp] theorem State.setPhase_got (p : Phase) : (s.setPhase p).got = s.got := rfl
@[simp] theorem State.setPhase_draining (p : Phase) : (s.setPhase p).draining = s.draining := rfl
@[simp] theorem State.setPhase_cfg (p : Phase) : (s.setPhase p).cfg = s.cfg := rfl
@[simp] theorem State.setPhase_input (p : Phase) : (s.setPhase p).input = s.input := rfl
@[simp] theorem State.setPhase_rx (p : Phase) : (s.setPhase p).rx = s.rx := rfl
@[simp] theorem State.setPhase_moves (p : Phase) : (s.setPhase p).moves = s.moves := rfl
@[simp] theorem State.setPhase_moveCount (p : Phase) : (s.setPhase p).moveCount = s.moveCount := rfl
@[simp] theorem State.setPhase_resetSeen (p : Phase) : (s.setPhase p).resetSeen = s.resetSeen := rfl

/-! `State.emitStr` -/

@[simp] theorem State.emitStr_op (t : Text) : (s.emitStr t).op = s.op := rfl
@[simp] theorem State.emitStr_kind (t : Text) : (s.emitStr t).kind = s.kind := rfl
@[simp] theorem State.emitStr_addr (t : Text) : (s.emitStr t).addr = s.addr := rfl
@[simp] theorem State.emitStr_len (t : Text) : (s.emitStr t).len = s.len := rfl
@[simp] theorem State.emitStr_phase (t : Text) : (s.emitStr t).phase = s.phase := rfl
@[simp] theorem State.emitStr_errcode (t : Text) : (s.emitStr t).errcode = s.errcode := rfl
@[simp] theorem State.emitStr_offset (t : Text) : (s.emitStr t).offset = s.offset := rfl
@[simp] theorem State.emitStr_remaining (t : Text) : (s.emitStr t).remaining = s.remaining := rfl
@[simp] theorem State.emitStr_reccnt (t : Text) : (s.emitStr t).reccnt = s.reccnt := rfl
@[simp] theorem State.emitStr_bcnt (t : Text) : (s.emitStr t).bcnt = s.bcnt := rfl
@[simp] theorem State.emitStr_sum (t : Text) : (s.emitStr t).sum = s.sum := rfl
@[simp] theorem State.emitStr_out (t : Text) : (s.emitStr t).out = s.out ++ t := rfl
@[simp] theorem State.emitStr_sent (t : Text) : (s.emitStr t).sent = s.sent := rfl
@[simp] theorem State.emitStr_got (t : Text) : (s.emitStr t).got = s.got := rfl
@[simp] theorem State.emitStr_draining (t : Text) : (s.emitStr t).draining = s.draining := rfl
@[simp] theorem State.emitStr_cfg (t : Text) : (s.emitStr t).cfg = s.cfg := rfl
@[simp] theorem State.emitStr_input (t : Text) : (s.emitStr t).input = s.input := rfl
@[simp] theorem State.emitStr_rx (t : Text) : (s.emitStr t).rx = s.rx := rfl
@[simp] theorem State.emitStr_moves (t : Text) : (s.emitStr t).moves = s.moves := rfl
@[simp] theorem State.emitStr_moveCount (t : Text) : (s.emitStr t).moveCount = s.moveCount := rfl
@[simp] theorem State.emitStr_resetSeen (t : Text) : (s.emitStr t).resetSeen = s.resetSeen := rfl

/-! `State.beginLine` -/

@[simp] theorem State.beginLine_op (k : BitVec 4) (bc : Byte) : (s.beginLine k bc).op = s.op := rfl
@[simp] theorem State.beginLine_kind (k : BitVec 4) (bc : Byte) : (s.beginLine k bc).kind = s.kind := rfl
@[simp] theorem State.beginLine_addr (k : BitVec 4) (bc : Byte) : (s.beginLine k bc).addr = s.addr := rfl
@[simp] theorem State.beginLine_len (k : BitVec 4) (bc : Byte) : (s.beginLine k bc).len = s.len := rfl
@[simp] theorem State.beginLine_phase (k : BitVec 4) (bc : Byte) : (s.beginLine k bc).phase = s.phase := rfl
@[simp] theorem State.beginLine_errcode (k : BitVec 4) (bc : Byte) : (s.beginLine k bc).errcode = s.errcode := rfl
@[simp] theorem State.beginLine_offset (k : BitVec 4) (bc : Byte) : (s.beginLine k bc).offset = s.offset := rfl
@[simp] theorem State.beginLine_remaining (k : BitVec 4) (bc : Byte) : (s.beginLine k bc).remaining = s.remaining := rfl
@[simp] theorem State.beginLine_reccnt (k : BitVec 4) (bc : Byte) : (s.beginLine k bc).reccnt = s.reccnt := rfl
@[simp] theorem State.beginLine_bcnt (k : BitVec 4) (bc : Byte) : (s.beginLine k bc).bcnt = bc := rfl
@[simp] theorem State.beginLine_sum (k : BitVec 4) (bc : Byte) : (s.beginLine k bc).sum = bc := rfl
@[simp] theorem State.beginLine_out (k : BitVec 4) (bc : Byte) : (s.beginLine k bc).out = s.out ++ ([chS, hexdig k] ++ hex2 bc) := rfl
@[simp] theorem State.beginLine_sent (k : BitVec 4) (bc : Byte) : (s.beginLine k bc).sent = s.sent := rfl
@[simp] theorem State.beginLine_got (k : BitVec 4) (bc : Byte) : (s.beginLine k bc).got = s.got := rfl
@[simp] theorem State.beginLine_draining (k : BitVec 4) (bc : Byte) : (s.beginLine k bc).draining = s.draining := rfl
@[simp] theorem State.beginLine_cfg (k : BitVec 4) (bc : Byte) : (s.beginLine k bc).cfg = s.cfg := rfl
@[simp] theorem State.beginLine_input (k : BitVec 4) (bc : Byte) : (s.beginLine k bc).input = s.input := rfl
@[simp] theorem State.beginLine_rx (k : BitVec 4) (bc : Byte) : (s.beginLine k bc).rx = s.rx := rfl
@[simp] theorem State.beginLine_moves (k : BitVec 4) (bc : Byte) : (s.beginLine k bc).moves = s.moves := rfl
@[simp] theorem State.beginLine_moveCount (k : BitVec 4) (bc : Byte) : (s.beginLine k bc).moveCount = s.moveCount := rfl
@[simp] theorem State.beginLine_resetSeen (k : BitVec 4) (bc : Byte) : (s.beginLine k bc).resetSeen = s.resetSeen := rfl

/-! `State.emitByte` -/

@[simp] theorem State.emitByte_op (b : Byte) : (s.emitByte b).op = s.op := rfl
@[simp] theorem State.emitByte_kind (b : Byte) : (s.emitByte b).kind = s.kind := rfl
@[simp] theorem State.emitByte_addr (b : Byte) : (s.emitByte b).addr = s.addr := rfl
@[simp] theorem State.emitByte_len (b : Byte) : (s.emitByte b).len = s.len := rfl
@[simp] theorem State.emitByte_phase (b : Byte) : (s.emitByte b).phase = s.phase := rfl
@[simp] theorem State.emitByte_errcode (b : Byte) : (s.emitByte b).errcode = s.errcode := rfl
@[simp] theorem State.emitByte_offset (b : Byte) : (s.emitByte b).offset = s.offset := rfl
@[simp] theorem State.emitByte_remaining (b : Byte) : (s.emitByte b).remaining = s.remaining := rfl
@[simp] theorem State.emitByte_reccnt (b : Byte) : (s.emitByte b).reccnt = s.reccnt := rfl
@[simp] theorem State.emitByte_bcnt (b : Byte) : (s.emitByte b).bcnt = s.bcnt := rfl
@[simp] theorem State.emitByte_sum (b : Byte) : (s.emitByte b).sum = s.sum + b := rfl
@[simp] theorem State.emitByte_out (b : Byte) : (s.emitByte b).out = s.out ++ hex2 b := rfl
@[simp] theorem State.emitByte_sent (b : Byte) : (s.emitByte b).sent = s.sent := rfl
@[simp] theorem State.emitByte_got (b : Byte) : (s.emitByte b).got = s.got := rfl
@[simp] theorem State.emitByte_draining (b : Byte) : (s.emitByte b).draining = s.draining := rfl
@[simp] theorem State.emitByte_cfg (b : Byte) : (s.emitByte b).cfg = s.cfg := rfl
@[simp] theorem State.emitByte_input (b : Byte) : (s.emitByte b).input = s.input := rfl
@[simp] theorem State.emitByte_rx (b : Byte) : (s.emitByte b).rx = s.rx := rfl
@[simp] theorem State.emitByte_moves (b : Byte) : (s.emitByte b).moves = s.moves := rfl
@[simp] theorem State.emitByte_moveCount (b : Byte) : (s.emitByte b).moveCount = s.moveCount := rfl
@[simp] theorem State.emitByte_resetSeen (b : Byte) : (s.emitByte b).resetSeen = s.resetSeen := rfl

/-! `State.endLine` -/

@[simp] theorem State.endLine_op : (s.endLine).op = s.op := rfl
@[simp] theorem State.endLine_kind : (s.endLine).kind = s.kind := rfl
@[simp] theorem State.endLine_addr : (s.endLine).addr = s.addr := rfl
@[simp] theorem State.endLine_len : (s.endLine).len = s.len := rfl
@[simp] theorem State.endLine_phase : (s.endLine).phase = s.phase := rfl
@[simp] theorem State.endLine_errcode : (s.endLine).errcode = s.errcode := rfl
@[simp] theorem State.endLine_offset : (s.endLine).offset = s.offset := rfl
@[simp] theorem State.endLine_remaining : (s.endLine).remaining = s.remaining := rfl
@[simp] theorem State.endLine_reccnt : (s.endLine).reccnt = s.reccnt := rfl
@[simp] theorem State.endLine_bcnt : (s.endLine).bcnt = s.bcnt := rfl
@[simp] theorem State.endLine_sum : (s.endLine).sum = s.sum := rfl
@[simp] theorem State.endLine_out : (s.endLine).out = s.out ++ (hex2 (0xFF#8 - s.sum) ++ [chLF]) := rfl
@[simp] theorem State.endLine_sent : (s.endLine).sent = s.sent := rfl
@[simp] theorem State.endLine_got : (s.endLine).got = s.got := rfl
@[simp] theorem State.endLine_draining : (s.endLine).draining = s.draining := rfl
@[simp] theorem State.endLine_cfg : (s.endLine).cfg = s.cfg := rfl
@[simp] theorem State.endLine_input : (s.endLine).input = s.input := rfl
@[simp] theorem State.endLine_rx : (s.endLine).rx = s.rx := rfl
@[simp] theorem State.endLine_moves : (s.endLine).moves = s.moves := rfl
@[simp] theorem State.endLine_moveCount : (s.endLine).moveCount = s.moveCount := rfl
@[simp] theorem State.endLine_resetSeen : (s.endLine).resetSeen = s.resetSeen := rfl

/-! `State.clearGot` -/

@[simp] theorem State.clearGot_op : (s.clearGot).op = s.op := rfl
@[simp] theorem State.clearGot_kind : (s.clearGot).kind = s.kind := rfl
@[simp] theorem State.clearGot_addr : (s.clearGot).addr = s.addr := rfl
@[simp] theorem State.clearGot_len : (s.clearGot).len = s.len := rfl
@[simp] theorem State.clearGot_phase : (s.clearGot).phase = s.phase := rfl
@[simp] theorem State.clearGot_errcode : (s.clearGot).errcode = s.errcode := rfl
@[simp] theorem State.clearGot_offset : (s.clearGot).offset = s.offset := rfl
@[simp] theorem State.clearGot_remaining : (s.clearGot).remaining = s.remaining := rfl
@[simp] theorem State.clearGot_reccnt : (s.clearGot).reccnt = s.reccnt := rfl
@[simp] theorem State.clearGot_bcnt : (s.clearGot).bcnt = s.bcnt := rfl
@[simp] theorem State.clearGot_sum : (s.clearGot).sum = s.sum := rfl
@[simp] theorem State.clearGot_out : (s.clearGot).out = s.out := rfl
@[simp] theorem State.clearGot_sent : (s.clearGot).sent = s.sent := rfl
@[simp] theorem State.clearGot_got : (s.clearGot).got = [] := rfl
@[simp] theorem State.clearGot_draining : (s.clearGot).draining = s.draining := rfl
@[simp] theorem State.clearGot_cfg : (s.clearGot).cfg = s.cfg := rfl
@[simp] theorem State.clearGot_input : (s.clearGot).input = s.input := rfl
@[simp] theorem State.clearGot_rx : (s.clearGot).rx = s.rx := rfl
@[simp] theorem State.clearGot_moves : (s.clearGot).moves = s.moves := rfl
@[simp] theorem State.clearGot_moveCount : (s.clearGot).moveCount = s.moveCount := rfl
@[simp] theorem State.clearGot_resetSeen : (s.clearGot).resetSeen = s.resetSeen := rfl

/-! `State.drain` -/

@[simp] theorem State.drain_op : (s.drain).op = s.op := rfl
@[simp] theorem State.drain_kind : (s.drain).kind = s.kind := rfl
@[simp] theorem State.drain_addr : (s.drain).addr = s.addr := rfl
@[simp] theorem State.drain_len : (s.drain).len = s.len := rfl
@[simp] theorem State.drain_phase : (s.drain).phase = s.phase := rfl
@[simp] theorem State.drain_errcode : (s.drain).errcode = s.errcode := rfl
@[simp] theorem State.drain_offset : (s.drain).offset = s.offset := rfl
@[simp] theorem State.drain_remaining : (s.drain).remaining = s.remaining := rfl
@[simp] theorem State.drain_reccnt : (s.drain).reccnt = s.reccnt := rfl
@[simp] theorem State.drain_bcnt : (s.drain).bcnt = s.bcnt := rfl
@[simp] theorem State.drain_sum : (s.drain).sum = s.sum := rfl
@[simp] theorem State.drain_out : (s.drain).out = s.out := rfl
@[simp] theorem State.drain_sent : (s.drain).sent = s.sent := rfl
@[simp] theorem State.drain_got : (s.drain).got = s.got := rfl
@[simp] theorem State.drain_draining : (s.drain).draining = true := rfl
@[simp] theorem State.drain_cfg : (s.drain).cfg = s.cfg := rfl
@[simp] theorem State.drain_input : (s.drain).input = s.input := rfl
@[simp] theorem State.drain_rx : (s.drain).rx = s.rx := rfl
@[simp] theorem State.drain_moves : (s.drain).moves = s.moves := rfl
@[simp] theorem State.drain_moveCount : (s.drain).moveCount = s.moveCount := rfl
@[simp] theorem State.drain_resetSeen : (s.drain).resetSeen = s.resetSeen := rfl

/-! `State.advance` -/

@[simp] theorem State.advance_op (n : Nat) : (s.advance n).op = s.op := rfl
@[simp] theorem State.advance_kind (n : Nat) : (s.advance n).kind = s.kind := rfl
@[simp] theorem State.advance_addr (n : Nat) : (s.advance n).addr = s.addr := rfl
@[simp] theorem State.advance_len (n : Nat) : (s.advance n).len = s.len := rfl
@[simp] theorem State.advance_phase (n : Nat) : (s.advance n).phase = s.phase := rfl
@[simp] theorem State.advance_errcode (n : Nat) : (s.advance n).errcode = s.errcode := rfl
@[simp] theorem State.advance_offset (n : Nat) : (s.advance n).offset = wrapLen s.cfg (s.offset + n) := rfl
@[simp] theorem State.advance_remaining (n : Nat) : (s.advance n).remaining = s.remaining - n := rfl
@[simp] theorem State.advance_reccnt (n : Nat) : (s.advance n).reccnt = s.reccnt := rfl
@[simp] theorem State.advance_bcnt (n : Nat) : (s.advance n).bcnt = s.bcnt := rfl
@[simp] theorem State.advance_sum (n : Nat) : (s.advance n).sum = s.sum := rfl
@[simp] theorem State.advance_out (n : Nat) : (s.advance n).out = s.out := rfl
@[simp] theorem State.advance_sent (n : Nat) : (s.advance n).sent = s.sent := rfl
@[simp] theorem State.advance_got (n : Nat) : (s.advance n).got = s.got := rfl
@[simp] theorem State.advance_draining (n : Nat) : (s.advance n).draining = s.draining := rfl
@[simp] theorem State.advance_cfg (n : Nat) : (s.advance n).cfg = s.cfg := rfl
@[simp] theorem State.advance_input (n : Nat) : (s.advance n).input = s.input := rfl
@[simp] theorem State.advance_rx (n : Nat) : (s.advance n).rx = s.rx := rfl
@[simp] theorem State.advance_moves (n : Nat) : (s.advance n).moves = s.moves := rfl
@[simp] theorem State.advance_moveCount (n : Nat) : (s.advance n).moveCount = s.moveCount := rfl
@[simp] theorem State.advance_resetSeen (n : Nat) : (s.advance n).resetSeen = s.resetSeen := rfl

/-! `State.countRecord` -/

@[simp] theorem State.countRecord_op : (s.countRecord).op = s.op := rfl
@[simp] theorem State.countRecord_kind : (s.countRecord).kind = s.kind := rfl
@[simp] theorem State.countRecord_addr : (s.countRecord).addr = s.addr := rfl
@[simp] theorem State.countRecord_len : (s.countRecord).len = s.len := rfl
@[simp] theorem State.countRecord_phase : (s.countRecord).phase = s.phase := rfl
@[simp] theorem State.countRecord_errcode : (s.countRecord).errcode = s.errcode := rfl
@[simp] theorem State.countRecord_offset : (s.countRecord).offset = s.offset := rfl
@[simp] theorem State.countRecord_remaining : (s.countRecord).remaining = s.remaining := rfl
@[simp] theorem State.countRecord_reccnt : (s.countRecord).reccnt = s.reccnt + 1#16 := rfl
@[simp] theorem State.countRecord_bcnt : (s.countRecord).bcnt = s.bcnt := rfl
@[simp] theorem State.countRecord_sum : (s.countRecord).sum = s.sum := rfl
@[simp] theorem State.countRecord_out : (s.countRecord).out = s.out := rfl
@[simp] theorem State.countRecord_sent : (s.countRecord).sent = s.sent := rfl
@[simp] theorem State.countRecord_got : (s.countRecord).got = s.got := rfl
@[simp] theorem State.countRecord_draining : (s.countRecord).draining = s.draining := rfl
@[simp] theorem State.countRecord_cfg : (s.countRecord).cfg = s.cfg := rfl
@[simp] theorem State.countRecord_input : (s.countRecord).input = s.input := rfl
@[simp] theorem State.countRecord_rx : (s.countRecord).rx = s.rx := rfl
@[simp] theorem State.countRecord_moves : (s.countRecord).moves = s.moves := rfl
@[simp] theorem State.countRecord_moveCount : (s.countRecord).moveCount = s.moveCount := rfl
@[simp] theorem State.countRecord_resetSeen : (s.countRecord).resetSeen = s.resetSeen := rfl

/-! `State.latch` -/

@[simp] theorem State.latch_op (o : BitVec 2) (k : BitVec 4) (a : Address) (l : Nat) : (s.latch o k a l).op = o := rfl
@[simp] theorem State.latch_kind (o : BitVec 2) (k : BitVec 4) (a : Address) (l : Nat) : (s.latch o k a l).kind = k := rfl
@[simp] theorem State.latch_addr (o : BitVec 2) (k : BitVec 4) (a : Address) (l : Nat) : (s.latch o k a l).addr = a := rfl
@[simp] theorem State.latch_len (o : BitVec 2) (k : BitVec 4) (a : Address) (l : Nat) : (s.latch o k a l).len = l := rfl
@[simp] theorem State.latch_phase (o : BitVec 2) (k : BitVec 4) (a : Address) (l : Nat) : (s.latch o k a l).phase = s.phase := rfl
@[simp] theorem State.latch_errcode (o : BitVec 2) (k : BitVec 4) (a : Address) (l : Nat) : (s.latch o k a l).errcode = s.errcode := rfl
@[simp] theorem State.latch_offset (o : BitVec 2) (k : BitVec 4) (a : Address) (l : Nat) : (s.latch o k a l).offset = 0 := rfl
@[simp] theorem State.latch_remaining (o : BitVec 2) (k : BitVec 4) (a : Address) (l : Nat) : (s.latch o k a l).remaining = l := rfl
@[simp] theorem State.latch_reccnt (o : BitVec 2) (k : BitVec 4) (a : Address) (l : Nat) : (s.latch o k a l).reccnt = 0 := rfl
@[simp] theorem State.latch_bcnt (o : BitVec 2) (k : BitVec 4) (a : Address) (l : Nat) : (s.latch o k a l).bcnt = s.bcnt := rfl
@[simp] theorem State.latch_sum (o : BitVec 2) (k : BitVec 4) (a : Address) (l : Nat) : (s.latch o k a l).sum = s.sum := rfl
@[simp] theorem State.latch_out (o : BitVec 2) (k : BitVec 4) (a : Address) (l : Nat) : (s.latch o k a l).out = [] := rfl
@[simp] theorem State.latch_sent (o : BitVec 2) (k : BitVec 4) (a : Address) (l : Nat) : (s.latch o k a l).sent = 0 := rfl
@[simp] theorem State.latch_got (o : BitVec 2) (k : BitVec 4) (a : Address) (l : Nat) : (s.latch o k a l).got = [] := rfl
@[simp] theorem State.latch_draining (o : BitVec 2) (k : BitVec 4) (a : Address) (l : Nat) : (s.latch o k a l).draining = false := rfl
@[simp] theorem State.latch_cfg (o : BitVec 2) (k : BitVec 4) (a : Address) (l : Nat) : (s.latch o k a l).cfg = s.cfg := rfl
@[simp] theorem State.latch_input (o : BitVec 2) (k : BitVec 4) (a : Address) (l : Nat) : (s.latch o k a l).input = s.input := rfl
@[simp] theorem State.latch_rx (o : BitVec 2) (k : BitVec 4) (a : Address) (l : Nat) : (s.latch o k a l).rx = [] := rfl
@[simp] theorem State.latch_moves (o : BitVec 2) (k : BitVec 4) (a : Address) (l : Nat) : (s.latch o k a l).moves = s.moves := rfl
@[simp] theorem State.latch_moveCount (o : BitVec 2) (k : BitVec 4) (a : Address) (l : Nat) : (s.latch o k a l).moveCount = s.moveCount := rfl
@[simp] theorem State.latch_resetSeen (o : BitVec 2) (k : BitVec 4) (a : Address) (l : Nat) : (s.latch o k a l).resetSeen = s.resetSeen := rfl

/-! `raise` -/

@[simp] theorem raise_op (c : FaultCause) : (raise c s).op = s.op := rfl
@[simp] theorem raise_kind (c : FaultCause) : (raise c s).kind = s.kind := rfl
@[simp] theorem raise_addr (c : FaultCause) : (raise c s).addr = s.addr := rfl
@[simp] theorem raise_len (c : FaultCause) : (raise c s).len = s.len := rfl
@[simp] theorem raise_phase (c : FaultCause) : (raise c s).phase = .err := rfl
@[simp] theorem raise_errcode (c : FaultCause) : (raise c s).errcode = c.code := rfl
@[simp] theorem raise_offset (c : FaultCause) : (raise c s).offset = s.offset := rfl
@[simp] theorem raise_remaining (c : FaultCause) : (raise c s).remaining = s.remaining := rfl
@[simp] theorem raise_reccnt (c : FaultCause) : (raise c s).reccnt = s.reccnt := rfl
@[simp] theorem raise_bcnt (c : FaultCause) : (raise c s).bcnt = s.bcnt := rfl
@[simp] theorem raise_sum (c : FaultCause) : (raise c s).sum = s.sum := rfl
@[simp] theorem raise_out (c : FaultCause) : (raise c s).out = s.out := rfl
@[simp] theorem raise_sent (c : FaultCause) : (raise c s).sent = s.sent := rfl
@[simp] theorem raise_got (c : FaultCause) : (raise c s).got = s.got := rfl
@[simp] theorem raise_draining (c : FaultCause) : (raise c s).draining = s.draining := rfl
@[simp] theorem raise_cfg (c : FaultCause) : (raise c s).cfg = s.cfg := rfl
@[simp] theorem raise_input (c : FaultCause) : (raise c s).input = s.input := rfl
@[simp] theorem raise_rx (c : FaultCause) : (raise c s).rx = s.rx := rfl
@[simp] theorem raise_moves (c : FaultCause) : (raise c s).moves = s.moves := rfl
@[simp] theorem raise_moveCount (c : FaultCause) : (raise c s).moveCount = s.moveCount := rfl
@[simp] theorem raise_resetSeen (c : FaultCause) : (raise c s).resetSeen = s.resetSeen := rfl

/-! `rearm` -/

@[simp] theorem rearm_op (o : BitVec 2) : (rearm o s).op = s.op := rfl
@[simp] theorem rearm_kind (o : BitVec 2) : (rearm o s).kind = s.kind := rfl
@[simp] theorem rearm_addr (o : BitVec 2) : (rearm o s).addr = s.addr := rfl
@[simp] theorem rearm_len (o : BitVec 2) : (rearm o s).len = s.len := rfl
@[simp] theorem rearm_phase (o : BitVec 2) : (rearm o s).phase = firstPhase o := rfl
@[simp] theorem rearm_errcode (o : BitVec 2) : (rearm o s).errcode = 0 := rfl
@[simp] theorem rearm_offset (o : BitVec 2) : (rearm o s).offset = s.offset := rfl
@[simp] theorem rearm_remaining (o : BitVec 2) : (rearm o s).remaining = s.remaining := rfl
@[simp] theorem rearm_reccnt (o : BitVec 2) : (rearm o s).reccnt = s.reccnt := rfl
@[simp] theorem rearm_bcnt (o : BitVec 2) : (rearm o s).bcnt = s.bcnt := rfl
@[simp] theorem rearm_sum (o : BitVec 2) : (rearm o s).sum = s.sum := rfl
@[simp] theorem rearm_out (o : BitVec 2) : (rearm o s).out = s.out := rfl
@[simp] theorem rearm_sent (o : BitVec 2) : (rearm o s).sent = s.sent := rfl
@[simp] theorem rearm_got (o : BitVec 2) : (rearm o s).got = s.got := rfl
@[simp] theorem rearm_draining (o : BitVec 2) : (rearm o s).draining = s.draining := rfl
@[simp] theorem rearm_cfg (o : BitVec 2) : (rearm o s).cfg = s.cfg := rfl
@[simp] theorem rearm_input (o : BitVec 2) : (rearm o s).input = s.input := rfl
@[simp] theorem rearm_rx (o : BitVec 2) : (rearm o s).rx = s.rx := rfl
@[simp] theorem rearm_moves (o : BitVec 2) : (rearm o s).moves = s.moves := rfl
@[simp] theorem rearm_moveCount (o : BitVec 2) : (rearm o s).moveCount = s.moveCount := rfl
@[simp] theorem rearm_resetSeen (o : BitVec 2) : (rearm o s).resetSeen = s.resetSeen := rfl

/-! `State.resetBlock` -/

@[simp] theorem State.resetBlock_op : (s.resetBlock).op = 0 := rfl
@[simp] theorem State.resetBlock_kind : (s.resetBlock).kind = 0 := rfl
@[simp] theorem State.resetBlock_addr : (s.resetBlock).addr = 0 := rfl
@[simp] theorem State.resetBlock_len : (s.resetBlock).len = 0 := rfl
@[simp] theorem State.resetBlock_phase : (s.resetBlock).phase = .idle := rfl
@[simp] theorem State.resetBlock_errcode : (s.resetBlock).errcode = 0 := rfl
@[simp] theorem State.resetBlock_offset : (s.resetBlock).offset = 0 := rfl
@[simp] theorem State.resetBlock_remaining : (s.resetBlock).remaining = 0 := rfl
@[simp] theorem State.resetBlock_reccnt : (s.resetBlock).reccnt = 0 := rfl
@[simp] theorem State.resetBlock_bcnt : (s.resetBlock).bcnt = 0 := rfl
@[simp] theorem State.resetBlock_sum : (s.resetBlock).sum = 0 := rfl
@[simp] theorem State.resetBlock_out : (s.resetBlock).out = [] := rfl
@[simp] theorem State.resetBlock_sent : (s.resetBlock).sent = 0 := rfl
@[simp] theorem State.resetBlock_got : (s.resetBlock).got = [] := rfl
@[simp] theorem State.resetBlock_draining : (s.resetBlock).draining = false := rfl
@[simp] theorem State.resetBlock_cfg : (s.resetBlock).cfg = s.cfg := rfl
@[simp] theorem State.resetBlock_input : (s.resetBlock).input = s.input := rfl
@[simp] theorem State.resetBlock_rx : (s.resetBlock).rx = s.rx := rfl
@[simp] theorem State.resetBlock_moves : (s.resetBlock).moves = s.moves := rfl
@[simp] theorem State.resetBlock_moveCount : (s.resetBlock).moveCount = s.moveCount := rfl
@[simp] theorem State.resetBlock_resetSeen : (s.resetBlock).resetSeen = true := rfl

/-! `State.transfer` -/

@[simp] theorem State.transfer_op : (s.transfer).op = s.op := rfl
@[simp] theorem State.transfer_kind : (s.transfer).kind = s.kind := rfl
@[simp] theorem State.transfer_addr : (s.transfer).addr = s.addr := rfl
@[simp] theorem State.transfer_len : (s.transfer).len = s.len := rfl
@[simp] theorem State.transfer_phase : (s.transfer).phase = s.phase := rfl
@[simp] theorem State.transfer_errcode : (s.transfer).errcode = s.errcode := rfl
@[simp] theorem State.transfer_offset : (s.transfer).offset = s.offset := rfl
@[simp] theorem State.transfer_remaining : (s.transfer).remaining = s.remaining := rfl
@[simp] theorem State.transfer_reccnt : (s.transfer).reccnt = s.reccnt := rfl
@[simp] theorem State.transfer_bcnt : (s.transfer).bcnt = s.bcnt := rfl
@[simp] theorem State.transfer_sum : (s.transfer).sum = s.sum := rfl
@[simp] theorem State.transfer_out : (s.transfer).out = s.out := rfl
@[simp] theorem State.transfer_sent : (s.transfer).sent = s.sent + 1 := rfl
@[simp] theorem State.transfer_got : (s.transfer).got = s.got := rfl
@[simp] theorem State.transfer_draining : (s.transfer).draining = s.draining := rfl
@[simp] theorem State.transfer_cfg : (s.transfer).cfg = s.cfg := rfl
@[simp] theorem State.transfer_input : (s.transfer).input = s.input := rfl
@[simp] theorem State.transfer_rx : (s.transfer).rx = s.rx ++ (s.out[s.sent]?).toList := rfl
@[simp] theorem State.transfer_moves : (s.transfer).moves = s.moves := rfl
@[simp] theorem State.transfer_moveCount : (s.transfer).moveCount = s.moveCount := rfl
@[simp] theorem State.transfer_resetSeen : (s.transfer).resetSeen = s.resetSeen := rfl

/-! `State.stage` -/

@[simp] theorem State.stage_op (b : Byte) : (s.stage b).op = s.op := rfl
@[simp] theorem State.stage_kind (b : Byte) : (s.stage b).kind = s.kind := rfl
@[simp] theorem State.stage_addr (b : Byte) : (s.stage b).addr = s.addr := rfl
@[simp] theorem State.stage_len (b : Byte) : (s.stage b).len = s.len := rfl
@[simp] theorem State.stage_phase (b : Byte) : (s.stage b).phase = s.phase := rfl
@[simp] theorem State.stage_errcode (b : Byte) : (s.stage b).errcode = s.errcode := rfl
@[simp] theorem State.stage_offset (b : Byte) : (s.stage b).offset = s.offset := rfl
@[simp] theorem State.stage_remaining (b : Byte) : (s.stage b).remaining = s.remaining := rfl
@[simp] theorem State.stage_reccnt (b : Byte) : (s.stage b).reccnt = s.reccnt := rfl
@[simp] theorem State.stage_bcnt (b : Byte) : (s.stage b).bcnt = s.bcnt := rfl
@[simp] theorem State.stage_sum (b : Byte) : (s.stage b).sum = s.sum := rfl
@[simp] theorem State.stage_out (b : Byte) : (s.stage b).out = s.out := rfl
@[simp] theorem State.stage_sent (b : Byte) : (s.stage b).sent = s.sent := rfl
@[simp] theorem State.stage_got (b : Byte) : (s.stage b).got = s.got ++ [b] := rfl
@[simp] theorem State.stage_draining (b : Byte) : (s.stage b).draining = s.draining := rfl
@[simp] theorem State.stage_cfg (b : Byte) : (s.stage b).cfg = s.cfg := rfl
@[simp] theorem State.stage_input (b : Byte) : (s.stage b).input = s.input := rfl
@[simp] theorem State.stage_rx (b : Byte) : (s.stage b).rx = s.rx := rfl
@[simp] theorem State.stage_moves (b : Byte) : (s.stage b).moves = s.moves := rfl
@[simp] theorem State.stage_moveCount (b : Byte) : (s.stage b).moveCount = s.moveCount := rfl
@[simp] theorem State.stage_resetSeen (b : Byte) : (s.stage b).resetSeen = s.resetSeen := rfl

/-! `State.popMove` -/

@[simp] theorem State.popMove_op (r : List Move) : (s.popMove r).op = s.op := rfl
@[simp] theorem State.popMove_kind (r : List Move) : (s.popMove r).kind = s.kind := rfl
@[simp] theorem State.popMove_addr (r : List Move) : (s.popMove r).addr = s.addr := rfl
@[simp] theorem State.popMove_len (r : List Move) : (s.popMove r).len = s.len := rfl
@[simp] theorem State.popMove_phase (r : List Move) : (s.popMove r).phase = s.phase := rfl
@[simp] theorem State.popMove_errcode (r : List Move) : (s.popMove r).errcode = s.errcode := rfl
@[simp] theorem State.popMove_offset (r : List Move) : (s.popMove r).offset = s.offset := rfl
@[simp] theorem State.popMove_remaining (r : List Move) : (s.popMove r).remaining = s.remaining := rfl
@[simp] theorem State.popMove_reccnt (r : List Move) : (s.popMove r).reccnt = s.reccnt := rfl
@[simp] theorem State.popMove_bcnt (r : List Move) : (s.popMove r).bcnt = s.bcnt := rfl
@[simp] theorem State.popMove_sum (r : List Move) : (s.popMove r).sum = s.sum := rfl
@[simp] theorem State.popMove_out (r : List Move) : (s.popMove r).out = s.out := rfl
@[simp] theorem State.popMove_sent (r : List Move) : (s.popMove r).sent = s.sent := rfl
@[simp] theorem State.popMove_got (r : List Move) : (s.popMove r).got = s.got := rfl
@[simp] theorem State.popMove_draining (r : List Move) : (s.popMove r).draining = s.draining := rfl
@[simp] theorem State.popMove_cfg (r : List Move) : (s.popMove r).cfg = s.cfg := rfl
@[simp] theorem State.popMove_input (r : List Move) : (s.popMove r).input = s.input := rfl
@[simp] theorem State.popMove_rx (r : List Move) : (s.popMove r).rx = s.rx := rfl
@[simp] theorem State.popMove_moves (r : List Move) : (s.popMove r).moves = r := rfl
@[simp] theorem State.popMove_moveCount (r : List Move) : (s.popMove r).moveCount = s.moveCount + 1 := rfl
@[simp] theorem State.popMove_resetSeen (r : List Move) : (s.popMove r).resetSeen = s.resetSeen := rfl

/-! `State.finishIfDrained`: only `PHASE` and the wait can change. -/

@[simp] theorem State.finishIfDrained_op : s.finishIfDrained.op = s.op := by unfold State.finishIfDrained; split <;> rfl
@[simp] theorem State.finishIfDrained_kind : s.finishIfDrained.kind = s.kind := by unfold State.finishIfDrained; split <;> rfl
@[simp] theorem State.finishIfDrained_addr : s.finishIfDrained.addr = s.addr := by unfold State.finishIfDrained; split <;> rfl
@[simp] theorem State.finishIfDrained_len : s.finishIfDrained.len = s.len := by unfold State.finishIfDrained; split <;> rfl
@[simp] theorem State.finishIfDrained_errcode : s.finishIfDrained.errcode = s.errcode := by unfold State.finishIfDrained; split <;> rfl
@[simp] theorem State.finishIfDrained_offset : s.finishIfDrained.offset = s.offset := by unfold State.finishIfDrained; split <;> rfl
@[simp] theorem State.finishIfDrained_remaining : s.finishIfDrained.remaining = s.remaining := by unfold State.finishIfDrained; split <;> rfl
@[simp] theorem State.finishIfDrained_reccnt : s.finishIfDrained.reccnt = s.reccnt := by unfold State.finishIfDrained; split <;> rfl
@[simp] theorem State.finishIfDrained_bcnt : s.finishIfDrained.bcnt = s.bcnt := by unfold State.finishIfDrained; split <;> rfl
@[simp] theorem State.finishIfDrained_sum : s.finishIfDrained.sum = s.sum := by unfold State.finishIfDrained; split <;> rfl
@[simp] theorem State.finishIfDrained_out : s.finishIfDrained.out = s.out := by unfold State.finishIfDrained; split <;> rfl
@[simp] theorem State.finishIfDrained_sent : s.finishIfDrained.sent = s.sent := by unfold State.finishIfDrained; split <;> rfl
@[simp] theorem State.finishIfDrained_got : s.finishIfDrained.got = s.got := by unfold State.finishIfDrained; split <;> rfl
@[simp] theorem State.finishIfDrained_cfg : s.finishIfDrained.cfg = s.cfg := by unfold State.finishIfDrained; split <;> rfl
@[simp] theorem State.finishIfDrained_input : s.finishIfDrained.input = s.input := by unfold State.finishIfDrained; split <;> rfl
@[simp] theorem State.finishIfDrained_rx : s.finishIfDrained.rx = s.rx := by unfold State.finishIfDrained; split <;> rfl
@[simp] theorem State.finishIfDrained_moves : s.finishIfDrained.moves = s.moves := by unfold State.finishIfDrained; split <;> rfl
@[simp] theorem State.finishIfDrained_moveCount : s.finishIfDrained.moveCount = s.moveCount := by unfold State.finishIfDrained; split <;> rfl
@[simp] theorem State.finishIfDrained_resetSeen : s.finishIfDrained.resetSeen = s.resetSeen := by unfold State.finishIfDrained; split <;> rfl

end Sys2Proof.Machine
end

