-- ==== Sys2Proof/Laws/Ops.lean ====
section
/-! SUPPORT. One spec lemma per shared operation: what it does when it answers a next state. -/

namespace Sys2Proof.Machine

@[simp] theorem mapNext_next (s : State) (f : State → State) : mapNext (.next s) f = .next (f s) := rfl

/-- `mapNext` answers a next state exactly through one. -/
theorem mapNext_eq_next {o : Host.Outcome State Fault Refusal} {f : State → State} {t : State} :
    mapNext o f = .next t ↔ ∃ u, o = .next u ∧ t = f u := by
  cases o with
  | next u =>
    simp only [mapNext_next, Host.Outcome.next.injEq]
    exact ⟨fun h => ⟨u, rfl, h.symm⟩, fun ⟨v, hv, ht⟩ => by rw [ht, hv]⟩
  | fault r => simp [mapNext]
  | refused r => simp [mapNext]

/-- The payload loop of a line: the sum and the digits of every byte, in order (R112). -/
theorem foldl_emitByte (p : List Byte) (s : State) :
    p.foldl State.emitByte s = { s with sum := s.sum + p.sum, out := s.out ++ p.flatMap hex2 } := by
  induction p generalizing s with
  | nil => simp
  | cons b p ih => simp [ih, State.emitByte, BitVec.add_assoc]

/-- `BuildLine` in one record update: the scratch registers and the appended characters, and nothing else (R112). -/
theorem buildLine_eq (k : BitVec 4) (a : Address) (p : List Byte) (s : State) :
    buildLine k a p s = { s with
      bcnt := BitVec.ofNat 8 (p.length + 3)
      sum := BitVec.ofNat 8 (p.length + 3) + addrHi a + addrLo a + p.sum
      out := s.out ++ ([chS, hexdig k] ++ hex2 (BitVec.ofNat 8 (p.length + 3)) ++ hex2 (addrHi a) ++ hex2 (addrLo a) ++
        p.flatMap hex2 ++ (hex2 (0xFF#8 - (BitVec.ofNat 8 (p.length + 3) + addrHi a + addrLo a + p.sum)) ++ [chLF])) } := by
  simp [buildLine, foldl_emitByte, State.beginLine, State.emitByte, State.endLine]

/-! `buildLine` leaves every other field. -/

@[simp] theorem buildLine_op (k : BitVec 4) (a : Address) (p : List Byte) (s : State) : (buildLine k a p s).op = s.op := by simp [buildLine_eq]
@[simp] theorem buildLine_kind (k : BitVec 4) (a : Address) (p : List Byte) (s : State) : (buildLine k a p s).kind = s.kind := by simp [buildLine_eq]
@[simp] theorem buildLine_addr (k : BitVec 4) (a : Address) (p : List Byte) (s : State) : (buildLine k a p s).addr = s.addr := by simp [buildLine_eq]
@[simp] theorem buildLine_len (k : BitVec 4) (a : Address) (p : List Byte) (s : State) : (buildLine k a p s).len = s.len := by simp [buildLine_eq]
@[simp] theorem buildLine_phase (k : BitVec 4) (a : Address) (p : List Byte) (s : State) : (buildLine k a p s).phase = s.phase := by simp [buildLine_eq]
@[simp] theorem buildLine_errcode (k : BitVec 4) (a : Address) (p : List Byte) (s : State) : (buildLine k a p s).errcode = s.errcode := by simp [buildLine_eq]
@[simp] theorem buildLine_offset (k : BitVec 4) (a : Address) (p : List Byte) (s : State) : (buildLine k a p s).offset = s.offset := by simp [buildLine_eq]
@[simp] theorem buildLine_remaining (k : BitVec 4) (a : Address) (p : List Byte) (s : State) : (buildLine k a p s).remaining = s.remaining := by simp [buildLine_eq]
@[simp] theorem buildLine_reccnt (k : BitVec 4) (a : Address) (p : List Byte) (s : State) : (buildLine k a p s).reccnt = s.reccnt := by simp [buildLine_eq]
@[simp] theorem buildLine_sent (k : BitVec 4) (a : Address) (p : List Byte) (s : State) : (buildLine k a p s).sent = s.sent := by simp [buildLine_eq]
@[simp] theorem buildLine_got (k : BitVec 4) (a : Address) (p : List Byte) (s : State) : (buildLine k a p s).got = s.got := by simp [buildLine_eq]
@[simp] theorem buildLine_draining (k : BitVec 4) (a : Address) (p : List Byte) (s : State) : (buildLine k a p s).draining = s.draining := by simp [buildLine_eq]
@[simp] theorem buildLine_cfg (k : BitVec 4) (a : Address) (p : List Byte) (s : State) : (buildLine k a p s).cfg = s.cfg := by simp [buildLine_eq]
@[simp] theorem buildLine_input (k : BitVec 4) (a : Address) (p : List Byte) (s : State) : (buildLine k a p s).input = s.input := by simp [buildLine_eq]
@[simp] theorem buildLine_rx (k : BitVec 4) (a : Address) (p : List Byte) (s : State) : (buildLine k a p s).rx = s.rx := by simp [buildLine_eq]
@[simp] theorem buildLine_moves (k : BitVec 4) (a : Address) (p : List Byte) (s : State) : (buildLine k a p s).moves = s.moves := by simp [buildLine_eq]
@[simp] theorem buildLine_moveCount (k : BitVec 4) (a : Address) (p : List Byte) (s : State) : (buildLine k a p s).moveCount = s.moveCount := by simp [buildLine_eq]
@[simp] theorem buildLine_resetSeen (k : BitVec 4) (a : Address) (p : List Byte) (s : State) : (buildLine k a p s).resetSeen = s.resetSeen := by simp [buildLine_eq]

/-- `emitRecord` builds the line of a payload in range, and answers no next state otherwise. -/
theorem emitRecord_eq_next {k : BitVec 4} {a : Address} {p : List Byte} {s t : State} :
    emitRecord k a p s = .next t ↔ p.length ≤ 252 ∧ t = buildLine k a p s := by
  unfold emitRecord
  split <;> simp_all [eq_comm]

/-- What `LEN_W` bits carry. -/
theorem lenFits_iff {w : Nat} {l : Nat} : lenFits w l = true ↔ l < 2 ^ w := by simp [lenFits]

/-- A value of `LEN_W` bits is its own low `LEN_W` bits. -/
theorem wrapLen_of_lt {c : Config} {n : Nat} (h : n < 2 ^ c.lenW) : wrapLen c n = n := Nat.mod_eq_of_lt h

/-- The low `LEN_W` bits are a value of `LEN_W` bits. -/
theorem wrapLen_lt (c : Config) (n : Nat) : wrapLen c n < 2 ^ c.lenW := Nat.mod_lt _ (Nat.two_pow_pos _)

/-- Every case of a `Start` (R70, R184, R186, R210). -/
theorem startCommand_cases (o : BitVec 2) (k : BitVec 4) (a : Address) (l : Nat) (s : State) :
    (s.resetSeen = false ∧ startCommand o k a l s = .refused .beforeFirstReset) ∨
    (s.resetSeen = true ∧ lenFits s.cfg.lenW l = false ∧ startCommand o k a l s = .refused .widerThanLenW) ∨
    (s.resetSeen = true ∧ lenFits s.cfg.lenW l = true ∧ s.busy = true ∧ startCommand o k a l s = .next s) ∨
    (s.resetSeen = true ∧ lenFits s.cfg.lenW l = true ∧ s.busy = false ∧
      startCommand o k a l s = .next (accept o k a l s)) := by
  unfold startCommand
  cases s.resetSeen <;> cases lenFits s.cfg.lenW l <;> cases s.busy <;> simp

/-- Both ways the accept step ends (R184). -/
theorem accept_cases (o : BitVec 2) (k : BitVec 4) (a : Address) (l : Nat) (s : State) :
    (∃ c, check s.cfg o k l = some c ∧ accept o k a l s = raise c (s.latch o k a l)) ∨
    (check s.cfg o k l = none ∧ accept o k a l s = rearm o (s.latch o k a l)) := by
  unfold accept
  cases check s.cfg o k l with
  | none => exact .inr ⟨rfl, rfl⟩
  | some c => exact .inl ⟨c, rfl, rfl⟩

/-- A fault has a code, and the code is not 0 (R189). -/
theorem FaultCause.code_ne_zero (c : FaultCause) : c.code ≠ 0 := by cases c <;> decide

/-- `Take` always answers a next state; every case of it (R188). -/
theorem takeChar_cases (s : State) :
    (s.sent < s.out.length ∧ takeChar s = .next s.transfer.finishIfDrained) ∨
    (s.out.length ≤ s.sent ∧ takeChar s = .next s) := by
  unfold takeChar
  split
  · next h => exact .inl ⟨h, rfl⟩
  · next h => exact .inr ⟨Nat.le_of_not_lt h, rfl⟩

/-- Both ways the wait for the sink can stand after a transfer (R63). -/
theorem finishIfDrained_cases (s : State) :
    (s.draining = true ∧ s.sent = s.out.length ∧ s.finishIfDrained = { s with phase := .done, draining := false }) ∨
    (¬ (s.draining = true ∧ s.sent = s.out.length) ∧ s.finishIfDrained = s) := by
  unfold State.finishIfDrained
  split
  · next h => simp at h; exact .inl ⟨h.1, h.2, rfl⟩
  · next h => simp at h; exact .inr ⟨by simpa using h, rfl⟩

/-- Every case of `Supply` (R52, R188). -/
theorem supplyByte_cases (s : State) :
    (inRe s = true ∧ inOffset s < s.len ∧
      supplyByte s = .next (s.stage (Memory.read s.input (inOffset s)))) ∨
    (inRe s = true ∧ s.len ≤ inOffset s ∧ supplyByte s = .refused .readBeyondLen) ∨
    (inRe s = false ∧ supplyByte s = .next s) := by
  unfold supplyByte memRead
  cases inRe s with
  | false => simp
  | true =>
    by_cases h : inOffset s < s.len
    · simp [h]
    · simp [h, Nat.le_of_not_lt h]

/-- Every way the host's change of a byte of `IN` ends (R181 f, R50, U6). -/
theorem setInput_cases (a : Nat) (b : Byte) (s : State) :
    (s.busy = true ∧ setInput a b s = .refused .inputChangedWhileBusy) ∨
    (s.busy = false ∧ lenFits s.cfg.lenW a = false ∧ setInput a b s = .refused .widerThanLenW) ∨
    (s.busy = false ∧ lenFits s.cfg.lenW a = true ∧
      setInput a b s = .next { s with input := Memory.write s.input a b }) := by
  unfold setInput
  cases s.busy <;> cases lenFits s.cfg.lenW a <;> simp

end Sys2Proof.Machine
end

