-- ==== Sys2Proof/Laws/PerInstr.lean ====
section
/-! SUPPORT. A fact about every command as syntax, one lemma per constructor: its port values carry all of its fields. -/

namespace Sys2Proof.Laws.CommandFields

/-- Decoding a command's port values gives the command, the port values are its fields, and it is well-formed where the port carries its `LEN` (R70, R71, R75). -/
def Statement (i : Instr) : Prop :=
  decodeCommand i.command = i ∧ i.command.op = i.op ∧ i.command.kind = i.kind ∧
    ∀ w, i.wf w = lenFits w i.command.len

theorem op_append (o : BitVec 2) (k : BitVec 4) (a : Address) (l : Nat) :
    (Command.mk (o ++ k) a l).op = o := by
  have h : ∀ (o : BitVec 2) (k : BitVec 4), (o ++ k).extractLsb' 4 2 = o := by decide
  exact h o k

theorem kind_append (o : BitVec 2) (k : BitVec 4) (a : Address) (l : Nat) :
    (Command.mk (o ++ k) a l).kind = k := by
  have h : ∀ (o : BitVec 2) (k : BitVec 4), (o ++ k).extractLsb' 0 4 = k := by decide
  exact h o k

/-- The decoder undoes the packing of a command on the ports. -/
theorem decodeCommand_command (i : Instr) : decodeCommand i.command = i := by
  have ho : i.command.op = i.op := op_append _ _ _ _
  have hk : i.command.kind = i.kind := kind_append _ _ _ _
  unfold decodeCommand decodeRecord
  rw [ho, hk]
  cases i <;> rfl

theorem recS0 (addr : Address) (len : Nat) : Statement (.recS0 addr len) :=
  ⟨decodeCommand_command _, op_append _ _ _ _, kind_append _ _ _ _, fun _ => rfl⟩

theorem recS1 (addr : Address) (len : Nat) : Statement (.recS1 addr len) :=
  ⟨decodeCommand_command _, op_append _ _ _ _, kind_append _ _ _ _, fun _ => rfl⟩

theorem recS5 (addr : Address) (len : Nat) : Statement (.recS5 addr len) :=
  ⟨decodeCommand_command _, op_append _ _ _ _, kind_append _ _ _ _, fun _ => rfl⟩

theorem recS9 (addr : Address) (len : Nat) : Statement (.recS9 addr len) :=
  ⟨decodeCommand_command _, op_append _ _ _ _, kind_append _ _ _ _, fun _ => rfl⟩

theorem recK2 (addr : Address) (len : Nat) : Statement (.recK2 addr len) :=
  ⟨decodeCommand_command _, op_append _ _ _ _, kind_append _ _ _ _, fun _ => rfl⟩

theorem recK3 (addr : Address) (len : Nat) : Statement (.recK3 addr len) :=
  ⟨decodeCommand_command _, op_append _ _ _ _, kind_append _ _ _ _, fun _ => rfl⟩

theorem recK4 (addr : Address) (len : Nat) : Statement (.recK4 addr len) :=
  ⟨decodeCommand_command _, op_append _ _ _ _, kind_append _ _ _ _, fun _ => rfl⟩

theorem recK6 (addr : Address) (len : Nat) : Statement (.recK6 addr len) :=
  ⟨decodeCommand_command _, op_append _ _ _ _, kind_append _ _ _ _, fun _ => rfl⟩

theorem recK7 (addr : Address) (len : Nat) : Statement (.recK7 addr len) :=
  ⟨decodeCommand_command _, op_append _ _ _ _, kind_append _ _ _ _, fun _ => rfl⟩

theorem recK8 (addr : Address) (len : Nat) : Statement (.recK8 addr len) :=
  ⟨decodeCommand_command _, op_append _ _ _ _, kind_append _ _ _ _, fun _ => rfl⟩

theorem recKA (addr : Address) (len : Nat) : Statement (.recKA addr len) :=
  ⟨decodeCommand_command _, op_append _ _ _ _, kind_append _ _ _ _, fun _ => rfl⟩

theorem recKB (addr : Address) (len : Nat) : Statement (.recKB addr len) :=
  ⟨decodeCommand_command _, op_append _ _ _ _, kind_append _ _ _ _, fun _ => rfl⟩

theorem recKC (addr : Address) (len : Nat) : Statement (.recKC addr len) :=
  ⟨decodeCommand_command _, op_append _ _ _ _, kind_append _ _ _ _, fun _ => rfl⟩

theorem recKD (addr : Address) (len : Nat) : Statement (.recKD addr len) :=
  ⟨decodeCommand_command _, op_append _ _ _ _, kind_append _ _ _ _, fun _ => rfl⟩

theorem recKE (addr : Address) (len : Nat) : Statement (.recKE addr len) :=
  ⟨decodeCommand_command _, op_append _ _ _ _, kind_append _ _ _ _, fun _ => rfl⟩

theorem recKF (addr : Address) (len : Nat) : Statement (.recKF addr len) :=
  ⟨decodeCommand_command _, op_append _ _ _ _, kind_append _ _ _ _, fun _ => rfl⟩

theorem srec (kind : BitVec 4) (addr : Address) (len : Nat) : Statement (.srec kind addr len) :=
  ⟨decodeCommand_command _, op_append _ _ _ _, kind_append _ _ _ _, fun _ => rfl⟩

theorem asm (kind : BitVec 4) (addr : Address) (len : Nat) : Statement (.asm kind addr len) :=
  ⟨decodeCommand_command _, op_append _ _ _ _, kind_append _ _ _ _, fun _ => rfl⟩

theorem op3 (kind : BitVec 4) (addr : Address) (len : Nat) : Statement (.op3 kind addr len) :=
  ⟨decodeCommand_command _, op_append _ _ _ _, kind_append _ _ _ _, fun _ => rfl⟩

end Sys2Proof.Laws.CommandFields
end

