-- ==== Sys2Proof/Laws/Step.lean ====
section
/-! SUPPORT. What a command, a move and a step can do, said once. -/

namespace Sys2Proof.Machine

/-- A command is well-formed exactly where `LEN_W` bits carry its `LEN` (R70). -/
theorem wf_eq_lenFits (w : Nat) (i : Instr) : i.wf w = lenFits w i.len := by cases i <;> rfl

/-- Every command is its `Start` on the values of its ports (R70, R184). -/
theorem exec_eq_startCommand (i : Instr) (s : State) : exec i s = startCommand i.op i.kind i.addr i.len s := by
  cases i <;> rfl

/-- After the first reset the guard of a move is open. -/
theorem afterReset_of_seen {s : State} (h : s.resetSeen = true) (o : Host.Outcome State Fault Refusal) :
    afterReset s o = o := by simp [afterReset, h]

/-- Before the first reset a move answers nothing but the refusal (R210). -/
theorem afterReset_eq_next {s t : State} {o : Host.Outcome State Fault Refusal} :
    afterReset s o = .next t ↔ s.resetSeen = true ∧ o = .next t := by
  unfold afterReset
  cases s.resetSeen <;> simp

/-- A step is a move on the state with that move taken off the list. -/
theorem step_eq_perform (s : State) : ∃ m r, step s = perform m (s.popMove r) ∧ (s.moves = m :: r ∨ (s.moves = [] ∧ m = .blockStep ∧ r = [])) := by
  unfold step
  cases h : s.moves with
  | nil => exact ⟨.blockStep, [], rfl, .inr ⟨rfl, rfl, rfl⟩⟩
  | cons m r => exact ⟨m, r, rfl, .inl rfl⟩

/-- Every way the block's own step answers a next state, by phase (R22, R182). -/
theorem blockStep_cases {s t : State} (h : blockStep s = .next t) :
    t = s ∨
    (s.phase = .record ∧ s.draining = false ∧ inRe s = false ∧ s.got.length ≤ 252 ∧
      t = ((buildLine s.kind s.addr s.got s).clearGot).drain) ∨
    (s.phase = .hdr ∧ t = (buildLine 0#4 0x0000#16 s.cfg.hdrTag.bytes s).setPhase .data) ∨
    (s.phase = .data ∧ s.remaining = 0 ∧ t = s.setPhase .cnt) ∨
    (s.phase = .data ∧ s.remaining ≠ 0 ∧ inRe s = false ∧ s.got.length ≤ 252 ∧
      t = (((buildLine 1#4 (BitVec.ofNat 16 s.offset) s.got s).clearGot).advance (chunkLen s)).countRecord) ∨
    (s.phase = .cnt ∧ t = (buildLine 5#4 s.reccnt [] s).setPhase .term) ∨
    (s.phase = .term ∧ s.draining = false ∧ t = (buildLine 9#4 0x0000#16 [] s).drain) ∨
    (s.phase = .asm ∧ s.remaining = 0 ∧ s.sent = s.out.length ∧ t = s.setPhase .done) ∨
    (s.phase = .asm ∧ s.remaining ≠ 0 ∧ inRe s = false ∧
      t = ((s.emitStr (asmLine s.cfg.asmPrefix s.got)).clearGot).advance (chunkLen s)) := by
  unfold blockStep at h
  cases hp : s.phase <;> rw [hp] at h <;> simp only [Host.Outcome.next.injEq] at h
  case idle => exact .inl h.symm
  case done => exact .inl h.symm
  case err => exact .inl h.symm
  case record =>
    unfold stepRecord at h
    split at h
    · simp only [Host.Outcome.next.injEq] at h; exact .inl h.symm
    · split at h
      · simp only [Host.Outcome.next.injEq] at h; exact .inl h.symm
      · simp only [mapNext_eq_next, emitRecord_eq_next] at h
        obtain ⟨u, ⟨hl, rfl⟩, rfl⟩ := h
        simp_all
  case hdr =>
    simp only [stepHdr, mapNext_eq_next, emitRecord_eq_next] at h
    obtain ⟨u, ⟨_, rfl⟩, rfl⟩ := h
    simp
  case data =>
    unfold stepData at h
    split at h
    · simp only [Host.Outcome.next.injEq] at h; simp_all
    · split at h
      · simp only [Host.Outcome.next.injEq] at h; exact .inl h.symm
      · simp only [mapNext_eq_next, emitRecord_eq_next] at h
        obtain ⟨u, ⟨hl, rfl⟩, rfl⟩ := h
        simp_all
  case cnt =>
    simp only [stepCnt, mapNext_eq_next, emitRecord_eq_next] at h
    obtain ⟨u, ⟨_, rfl⟩, rfl⟩ := h
    simp
  case term =>
    unfold stepTerm at h
    split at h
    · simp only [Host.Outcome.next.injEq] at h; exact .inl h.symm
    · simp only [mapNext_eq_next, emitRecord_eq_next] at h
      obtain ⟨u, ⟨hl, rfl⟩, rfl⟩ := h
      simp_all
  case asm =>
    unfold stepAsm at h
    split at h
    · split at h
      · simp only [Host.Outcome.next.injEq] at h; simp_all
      · simp only [Host.Outcome.next.injEq] at h; exact .inl h.symm
    · split at h
      · simp only [Host.Outcome.next.injEq] at h; exact .inl h.symm
      · simp only [Host.Outcome.next.injEq] at h; simp_all

/-- Every way a move answers a next state (R181). -/
theorem perform_cases {m : Move} {s t : State} (h : perform m s = .next t) :
    (m = .blockStep ∧ s.resetSeen = true ∧ blockStep s = .next t) ∨
    (∃ c, m = .start c ∧ s.resetSeen = true ∧ s.busy = true ∧ t = s) ∨
    (∃ c, m = .start c ∧ s.resetSeen = true ∧ (decodeCommand c).len < 2 ^ s.cfg.lenW ∧ s.busy = false ∧
      t = accept (decodeCommand c).op (decodeCommand c).kind (decodeCommand c).addr (decodeCommand c).len s) ∨
    (∃ p, m = .rst p ∧ t = s.resetBlock) ∨
    (m = .take ∧ s.resetSeen = true ∧ takeChar s = .next t) ∨
    (m = .supply ∧ s.resetSeen = true ∧ supplyByte s = .next t) ∨
    (m = .readStatus ∧ s.resetSeen = true ∧ t = s) ∨
    (∃ a b, m = .setInput a b ∧ s.resetSeen = true ∧ s.busy = false ∧ a < 2 ^ s.cfg.lenW ∧
      t = { s with input := Memory.write s.input a b }) := by
  cases m with
  | blockStep => simp_all [perform, afterReset_eq_next]
  | start c =>
    simp only [perform, exec_eq_startCommand] at h
    rcases startCommand_cases (decodeCommand c).op (decodeCommand c).kind (decodeCommand c).addr (decodeCommand c).len s with
      ⟨_, e⟩ | ⟨_, _, e⟩ | ⟨hr, _, hb, e⟩ | ⟨hr, hl, hb, e⟩ <;> rw [e] at h <;> cases h
    · exact .inr (.inl ⟨c, rfl, hr, hb, rfl⟩)
    · exact .inr (.inr (.inl ⟨c, rfl, hr, lenFits_iff.mp hl, hb, rfl⟩))
  | rst p => cases h; exact .inr (.inr (.inr (.inl ⟨p, rfl, rfl⟩)))
  | take => simp_all [perform, afterReset_eq_next]
  | supply => simp_all [perform, afterReset_eq_next]
  | readStatus =>
    obtain ⟨hr, hn⟩ := afterReset_eq_next.mp h
    cases hn
    simp [hr]
  | setInput a b =>
    obtain ⟨hr, hn⟩ := afterReset_eq_next.mp h
    rcases setInput_cases a b s with ⟨_, e⟩ | ⟨_, _, e⟩ | ⟨hb, ha, e⟩ <;> rw [e] at hn <;> cases hn
    simp [hr, hb, lenFits_iff.mp ha]

end Sys2Proof.Machine
end

