-- ==== Sys2Proof/Tests/Slice0.lean ====
section
/-! SUPPORT. Tests and witnesses. Expected values come from the spec's encoding tables (R70 to R75, R86) and from the vectors
V01 to V67 of `95_test_vectors.md`, named at each test; a witness shows that the hypotheses of an obligation can be met. -/

open Sys2Proof Sys2Proof.Machine

namespace Sys2Proof.Tests

set_option Elab.async false

/-! ## Helpers -/

/-- The test tag `HDR01` of `95_test_vectors.md`. -/
def tag : HdrTag := { b0 := 0x48#8, b1 := 0x44#8, b2 := 0x52#8, b3 := 0x30#8, b4 := 0x31#8 }

/-- The test configuration of `95_test_vectors.md`: `LEN_W = 32`, tag `HDR01`, the prefix `DC.B ` of five characters, no bound. -/
def config : Config := { lenW := 32, hdrTag := tag, asmPrefix := [0x44#8, 0x43#8, 0x2E#8, 0x42#8, 0x20#8], outCap := none }

/-- Characters as a text. -/
def txt (cs : List Char) : Text := cs.map (fun c => BitVec.ofNat 8 c.toNat)

/-- Small numbers as bytes. -/
def bytes (ns : List Nat) : List Byte := ns.map (BitVec.ofNat 8)

/-- `IN = 00 01 .. 10`, the input of V33 and V53. -/
def input17 : Memory := (List.range 16).map (fun i => (i + 1, BitVec.ofNat 8 (i + 1)))

/-- Just after reset, in the test configuration, with `IN` placed. -/
def idle : State := { State.reset with cfg := config, input := input17 }

/-- The same with a bounded output. -/
def capped (c : Nat) : State := { idle with cfg := { config with outCap := some c } }

/-- The same with `LEN_W = 8`, the least R7 allows. -/
def narrow : State := { idle with cfg := { config with lenW := 8 } }

/-- A value read off the next state. -/
def got? {α : Type} (o : Host.Outcome State Fault Refusal) (f : State → α) : Option α :=
  match o with
  | .next t => some (f t)
  | .fault _ => none
  | .refused _ => none

/-- The state after some moves; a refused move is skipped. -/
def play : List Move → State → State
  | [], s => s
  | m :: ms, s =>
    match perform m s with
    | .next t => play ms t
    | .fault _ => play ms s
    | .refused _ => play ms s

/-- What an accepted or refused command leaves: phase, error code and the length latched. -/
def summary (t : State) : Phase × BitVec 3 × Nat := (t.phase, t.errcode, t.len)

/-- A state in `PHASE = REC` whose payload is read. -/
def atRecord (k : BitVec 4) (a : Address) (p : List Byte) : State :=
  { idle with kind := k, addr := a, len := p.length, phase := .record, got := p }

/-! ## Decoding: every row of the table, from the field tables -/

theorem test_decode_recS0 : decode 32 [0b00000000#8, 0xCD#8, 0xAB#8, 0x04#8, 0x03#8, 0x02#8, 0x01#8] = .ok (.recS0 0xABCD#16 0x01020304, []) := by decide
theorem test_decode_recS1 : decode 32 [0b00000001#8, 0xCD#8, 0xAB#8, 0x04#8, 0x03#8, 0x02#8, 0x01#8] = .ok (.recS1 0xABCD#16 0x01020304, []) := by decide
theorem test_decode_recS5 : decode 32 [0b00000101#8, 0xCD#8, 0xAB#8, 0x04#8, 0x03#8, 0x02#8, 0x01#8] = .ok (.recS5 0xABCD#16 0x01020304, []) := by decide
theorem test_decode_recS9 : decode 32 [0b00001001#8, 0xCD#8, 0xAB#8, 0x04#8, 0x03#8, 0x02#8, 0x01#8] = .ok (.recS9 0xABCD#16 0x01020304, []) := by decide
theorem test_decode_recK2 : decode 32 [0b00000010#8, 0xCD#8, 0xAB#8, 0x04#8, 0x03#8, 0x02#8, 0x01#8] = .ok (.recK2 0xABCD#16 0x01020304, []) := by decide
theorem test_decode_recK3 : decode 32 [0b00000011#8, 0xCD#8, 0xAB#8, 0x04#8, 0x03#8, 0x02#8, 0x01#8] = .ok (.recK3 0xABCD#16 0x01020304, []) := by decide
theorem test_decode_recK4 : decode 32 [0b00000100#8, 0xCD#8, 0xAB#8, 0x04#8, 0x03#8, 0x02#8, 0x01#8] = .ok (.recK4 0xABCD#16 0x01020304, []) := by decide
theorem test_decode_recK6 : decode 32 [0b00000110#8, 0xCD#8, 0xAB#8, 0x04#8, 0x03#8, 0x02#8, 0x01#8] = .ok (.recK6 0xABCD#16 0x01020304, []) := by decide
theorem test_decode_recK7 : decode 32 [0b00000111#8, 0xCD#8, 0xAB#8, 0x04#8, 0x03#8, 0x02#8, 0x01#8] = .ok (.recK7 0xABCD#16 0x01020304, []) := by decide
theorem test_decode_recK8 : decode 32 [0b00001000#8, 0xCD#8, 0xAB#8, 0x04#8, 0x03#8, 0x02#8, 0x01#8] = .ok (.recK8 0xABCD#16 0x01020304, []) := by decide
theorem test_decode_recKA : decode 32 [0b00001010#8, 0xCD#8, 0xAB#8, 0x04#8, 0x03#8, 0x02#8, 0x01#8] = .ok (.recKA 0xABCD#16 0x01020304, []) := by decide
theorem test_decode_recKB : decode 32 [0b00001011#8, 0xCD#8, 0xAB#8, 0x04#8, 0x03#8, 0x02#8, 0x01#8] = .ok (.recKB 0xABCD#16 0x01020304, []) := by decide
theorem test_decode_recKC : decode 32 [0b00001100#8, 0xCD#8, 0xAB#8, 0x04#8, 0x03#8, 0x02#8, 0x01#8] = .ok (.recKC 0xABCD#16 0x01020304, []) := by decide
theorem test_decode_recKD : decode 32 [0b00001101#8, 0xCD#8, 0xAB#8, 0x04#8, 0x03#8, 0x02#8, 0x01#8] = .ok (.recKD 0xABCD#16 0x01020304, []) := by decide
theorem test_decode_recKE : decode 32 [0b00001110#8, 0xCD#8, 0xAB#8, 0x04#8, 0x03#8, 0x02#8, 0x01#8] = .ok (.recKE 0xABCD#16 0x01020304, []) := by decide
theorem test_decode_recKF : decode 32 [0b00001111#8, 0xCD#8, 0xAB#8, 0x04#8, 0x03#8, 0x02#8, 0x01#8] = .ok (.recKF 0xABCD#16 0x01020304, []) := by decide
theorem test_decode_srec : decode 32 [0b00011101#8, 0xCD#8, 0xAB#8, 0x04#8, 0x03#8, 0x02#8, 0x01#8] = .ok (.srec 0b1101#4 0xABCD#16 0x01020304, []) := by decide
theorem test_decode_asm : decode 32 [0b00101101#8, 0xCD#8, 0xAB#8, 0x04#8, 0x03#8, 0x02#8, 0x01#8] = .ok (.asm 0b1101#4 0xABCD#16 0x01020304, []) := by decide
theorem test_decode_op3 : decode 32 [0b00111101#8, 0xCD#8, 0xAB#8, 0x04#8, 0x03#8, 0x02#8, 0x01#8] = .ok (.op3 0b1101#4 0xABCD#16 0x01020304, []) := by decide

/-- The opcode table's words, numbered as the table numbers them. -/
theorem test_table_words :
    (opcodeRows.map (fun r => (decodeTableWord 8 r.pattern.toNat).map Instr.mnemonic)) = opcodeRows.map (fun r => some r.mnemonic) := by
  decide +kernel
theorem test_encode_srec : encode 32 (.srec 0xF#4 0xFFFF#16 17) = [0x1F#8, 0xFF#8, 0xFF#8, 0x11#8, 0#8, 0#8, 0#8] := by decide
/-- With `LEN_W = 8` the image has four bytes (R7; the byte image is log 13). -/
theorem test_decode_narrow : decode 8 [0x01#8, 0x34#8, 0x12#8, 0xFF#8, 0x77#8] = .ok (.recS1 0x1234#16 255, [0x77#8]) := by decide
/-- With `LEN_W = 12` two bytes hold `len`, and a value of thirteen bits is none (log 13). -/
theorem test_decode_too_wide : decode 12 [0x20#8, 0#8, 0#8, 0x00#8, 0x10#8] = .error (.operandTooWide 4096) := by decide
theorem test_decode_just_fits : decode 12 [0x20#8, 0#8, 0#8, 0xFF#8, 0x0F#8] = .ok (.asm 0 0 4095, []) := by decide

/-! ## Well-formedness: one ill-formed configuration for each check of R7, one ill-formed command for the width of `len` -/

theorem test_tag_refused : ({ config with hdrTag := { tag with b4 := 0x80#8 } } : Config).wf = false := by decide
theorem test_tag_boundary : ({ config with hdrTag := { tag with b4 := 0x7F#8 } } : Config).wf = true := by decide
theorem test_prefix_refused : ({ config with asmPrefix := [0x80#8] } : Config).wf = false := by decide
theorem test_prefix_newline_refused : ({ config with asmPrefix := [0x44#8, 0x0A#8] } : Config).wf = false := by decide
theorem test_lenW_refused : ({ config with lenW := 7 } : Config).wf = false := by decide
theorem test_lenW_boundary : ({ config with lenW := 8 } : Config).wf = true := by decide
theorem test_command_refused : (Instr.srec 0 0 4294967296).wf 32 = false := by decide
theorem test_command_boundary : (Instr.srec 0 0 4294967295).wf 32 = true := by decide
theorem test_config_wf : config.wf = true := by decide

/-! ## Formats -/

/-- V01. -/
theorem test_hexdig : [hexdig 0, hexdig 9, hexdig 10, hexdig 15] = txt ['0', '9', 'A', 'F'] := by decide
/-- V02. -/
theorem test_hex2 : [hex2 0x07#8, hex2 0x10#8, hex2 0xA5#8] = [txt ['0', '7'], txt ['1', '0'], txt ['A', '5']] := by decide
/-- V03. -/
theorem test_hex4 : [hex4 0x1234#16, hex4 0xFFF0#16] = [txt ['1', '2', '3', '4'], txt ['F', 'F', 'F', '0']] := by decide
/-- V38's last data line. -/
theorem test_line_last_address : recordLine 1#4 0xFFF0#16 (List.replicate 16 0#8) =
    txt ['S', '1', '1', '3', 'F', 'F', 'F', '0', '0', '0', '0', '0', '0', '0', '0', '0', '0', '0', '0', '0', '0', '0', '0', '0', '0', '0', '0', '0', '0', '0', '0', '0', '0', '0', '0', '0', '0', '0', '0', '0', 'F', 'D'] ++ [chLF] := by decide
/-- V59. -/
theorem test_listing_no_prefix : asmLine [] [0x00#8, 0xFF#8] = txt ['$', '0', '0', ',', ' ', '$', 'F', 'F'] ++ [chLF] := by decide
/-- V54. -/
theorem test_listing_newline_byte : asmLine config.asmPrefix [0x48#8, 0x69#8, 0x0A#8] = txt ['D', 'C', '.', 'B', ' ', '$', '4', '8', ',', ' ', '$', '6', '9', ',', ' ', '$', '0', 'A'] ++ [chLF] := by decide

/-! ## The commands: the accept step -/

/-- V20: the largest legal `LEN`. -/
theorem test_recS0_longest : got? (exec (.recS0 0 252) idle) summary = some (.record, 0, 252) := by decide +kernel
/-- V2B. -/
theorem test_recS0_too_long : got? (exec (.recS0 0 253) idle) summary = some (.err, 4, 253) := by decide +kernel
/-- V2E. -/
theorem test_recS1_does_not_fit : got? (exec (.recS1 0 2) (capped 14)) summary = some (.err, 3, 2) := by decide +kernel
/-- V2C. -/
theorem test_recS5_payload : got? (exec (.recS5 0 1) idle) summary = some (.err, 4, 1) := by decide +kernel
/-- V63: `ERR` is left by the next accepted command. -/
theorem test_recS9_leaves_err : got? (exec (.recS9 0 0) (play [.start { cmdw := 0x30#6, addr := 0, len := 0 }] idle)) summary = some (.record, 0, 0) := by decide +kernel
/-- V44: `cmdw = 0x1F`, `addr = 0xFFFF`. -/
theorem test_srec_ignores_kind : got? (exec (.srec 0xF#4 0xFFFF#16 17) idle) summary = some (.hdr, 0, 17) := by decide +kernel
/-- V40: takes priority over `AddressRange`. -/
theorem test_srec_count_overflow : got? (exec (.srec 0 0 1048561) idle) summary = some (.err, 2, 1048561) := by decide +kernel
/-- V56. -/
theorem test_asm_has_no_limit : got? (exec (.asm 0 0 1048561) idle) summary = some (.asm, 0, 1048561) := by decide +kernel
/-- V57. -/
theorem test_asm_does_not_fit : got? (exec (.asm 0 0 17) (capped 92)) summary = some (.err, 3, 17) := by decide +kernel
/-- R7, R70: the longest buffer of a machine with `LEN_W = 8`. -/
theorem test_asm_narrow : got? (exec (.asm 0 0 255) narrow) summary = some (.asm, 0, 255) := by decide +kernel
/-- V29: the kind is checked before the length. -/
theorem test_recK2 : got? (exec (.recK2 0 999) idle) summary = some (.err, 1, 999) := by decide +kernel
/-- V28. -/
theorem test_recK3 : got? (exec (.recK3 0 0) idle) summary = some (.err, 1, 0) := by decide +kernel
/-- V28. -/
theorem test_recK4 : got? (exec (.recK4 0 0) idle) summary = some (.err, 1, 0) := by decide +kernel
/-- V28. -/
theorem test_recK6 : got? (exec (.recK6 0 0) idle) summary = some (.err, 1, 0) := by decide +kernel
/-- V28. -/
theorem test_recK7 : got? (exec (.recK7 0 0) idle) summary = some (.err, 1, 0) := by decide +kernel
/-- V27. -/
theorem test_recK8 : got? (exec (.recK8 0 0) idle) summary = some (.err, 1, 0) := by decide +kernel
/-- V28. -/
theorem test_recKA : got? (exec (.recKA 0 0) idle) summary = some (.err, 1, 0) := by decide +kernel
/-- V28. -/
theorem test_recKB : got? (exec (.recKB 0 0) idle) summary = some (.err, 1, 0) := by decide +kernel
/-- V28. -/
theorem test_recKC : got? (exec (.recKC 0 0) idle) summary = some (.err, 1, 0) := by decide +kernel
/-- V28. -/
theorem test_recKD : got? (exec (.recKD 0 0) idle) summary = some (.err, 1, 0) := by decide +kernel
/-- V28. -/
theorem test_recKE : got? (exec (.recKE 0 0) idle) summary = some (.err, 1, 0) := by decide +kernel
/-- V28. -/
theorem test_recKF : got? (exec (.recKF 0 0) idle) summary = some (.err, 1, 0) := by decide +kernel
/-- V62: the operation code is checked before the kind. -/
theorem test_op3 : got? (exec (.op3 2 0 0) idle) summary = some (.err, 6, 0) := by decide +kernel
/-- V67: what the fault entry leaves in the traversal registers. -/
theorem test_fault_entry : got? (exec (.srec 0 0 1048561) idle) (fun t => (t.offset, t.remaining, t.reccnt, t.out, t.status)) =
    some (0, 1048561, 0, [], 3) := by decide +kernel

/-! ## The block steps -/

/-- V11. -/
theorem test_recS0_line : got? (perform .blockStep (atRecord 0#4 0 (bytes [0x48, 0x44, 0x52, 0x30, 0x31]))) State.out =
    some (txt ['S', '0', '0', '8', '0', '0', '0', '0', '4', '8', '4', '4', '5', '2', '3', '0', '3', '1', 'B', '8'] ++ [chLF]) := by decide +kernel
/-- V24. -/
theorem test_recS1_line : got? (perform .blockStep (atRecord 1#4 0x1234#16 (bytes [0x56]))) State.out =
    some (txt ['S', '1', '0', '4', '1', '2', '3', '4', '5', '6', '5', 'F'] ++ [chLF]) := by decide +kernel
/-- V16: the sum wraps. -/
theorem test_recS5_line : got? (perform .blockStep (atRecord 5#4 0xFFFF#16 (bytes []))) State.out =
    some (txt ['S', '5', '0', '3', 'F', 'F', 'F', 'F', 'F', 'E'] ++ [chLF]) := by decide +kernel
/-- V17. -/
theorem test_recS9_line : got? (perform .blockStep (atRecord 9#4 0x1234#16 (bytes []))) State.out =
    some (txt ['S', '9', '0', '3', '1', '2', '3', '4', 'B', '6'] ++ [chLF]) := by decide +kernel

/-! ## States of the operations, reached by moves (V33, V46, V53) -/

/-- `n` answers of the source. -/
def supplies (n : Nat) : List Move := List.replicate n .supply

/-- `n` transfers to the sink. -/
def takes (n : Nat) : List Move := List.replicate n .take

/-- `REC.S1 0x1234, 1` accepted. -/
def recAccepted : State := play [.start { cmdw := 0x01#6, addr := 0x1234#16, len := 1 }] idle
/-- Its payload read. -/
def recRead : State := play (supplies 1) recAccepted
/-- Its line in `OUT`, the step waiting for the sink. -/
def recDraining : State := play [.blockStep] recRead
/-- One character left to take. -/
def recLastChar : State := play (takes 12) recDraining
/-- `DONE`. -/
def recDone : State := play [.take] recLastChar

/-- `SREC 17` accepted (V46, first row). -/
def srecHdr : State := play [.start { cmdw := 0x10#6, addr := 0, len := 17 }] idle
/-- The header is out (V46, second row). -/
def srecData : State := play [.blockStep] srecHdr
/-- The first chunk is read. -/
def srecDataRead : State := play (supplies 16) srecData
/-- All data is out (V46, fourth row). -/
def srecDataEnd : State := play ([.blockStep] ++ supplies 1 ++ [.blockStep]) srecDataRead
/-- V46, fifth row. -/
def srecCnt : State := play [.blockStep] srecDataEnd
/-- V46, sixth row. -/
def srecTerm : State := play [.blockStep] srecCnt
/-- The terminator is out, the step waiting for the sink. -/
def srecDraining : State := play [.blockStep] srecTerm

/-- `ASM 17` accepted. -/
def asmStart : State := play [.start { cmdw := 0x20#6, addr := 0, len := 17 }] idle
/-- The first group is read. -/
def asmRead : State := play (supplies 16) asmStart
/-- Both lines are out, the sink has taken nothing. -/
def asmEnd : State := play ([.blockStep] ++ supplies 1 ++ [.blockStep]) asmRead
/-- The sink has taken everything (V53: 93 characters). -/
def asmTaken : State := play (takes 93) asmEnd

/-- A command refused with a fault. -/
def faulted : State := play [.start { cmdw := 0x30#6, addr := 0, len := 0 }] idle

/-- Power-up, before the first reset. -/
def unborn : State := { idle with resetSeen := false }

/-- The columns of V46. -/
def trace (t : State) : Phase × Nat × Nat × BitVec 16 := (t.phase, t.offset, t.remaining, t.reccnt)

/-- V46. -/
theorem test_trace_accept : trace srecHdr = (.hdr, 0, 17, 0) := by decide +kernel
/-- V46. -/
theorem test_trace_hdr : trace srecData = (.data, 0, 17, 0) := by decide +kernel
/-- V46. -/
theorem test_trace_data : trace srecDataEnd = (.data, 17, 0, 2) := by decide +kernel
/-- V46. -/
theorem test_trace_exit : trace srecCnt = (.cnt, 17, 0, 2) := by decide +kernel
/-- V46. -/
theorem test_trace_cnt : trace srecTerm = (.term, 17, 0, 2) := by decide +kernel
/-- V33, the whole text. -/
theorem test_srec_text : srecDraining.out =
    txt ['S', '0', '0', '8', '0', '0', '0', '0', '4', '8', '4', '4', '5', '2', '3', '0', '3', '1', 'B', '8'] ++ [chLF] ++
    txt ['S', '1', '1', '3', '0', '0', '0', '0', '0', '0', '0', '1', '0', '2', '0', '3', '0', '4', '0', '5', '0', '6', '0', '7', '0', '8', '0', '9', '0', 'A', '0', 'B', '0', 'C', '0', 'D', '0', 'E', '0', 'F', '7', '4'] ++ [chLF] ++
    txt ['S', '1', '0', '4', '0', '0', '1', '0', '1', '0', 'D', 'B'] ++ [chLF] ++
    txt ['S', '5', '0', '3', '0', '0', '0', '2', 'F', 'A'] ++ [chLF] ++
    txt ['S', '9', '0', '3', '0', '0', '0', '0', 'F', 'C'] ++ [chLF] := by decide +kernel
/-- V53, the whole listing. -/
theorem test_asm_text : asmEnd.out =
    txt ['D', 'C', '.', 'B', ' ', '$', '0', '0', ',', ' ', '$', '0', '1', ',', ' ', '$', '0', '2', ',', ' ', '$', '0', '3', ',', ' ', '$', '0', '4', ',', ' ', '$', '0', '5', ',', ' ', '$', '0', '6', ',', ' ', '$', '0', '7', ',', ' ', '$', '0', '8', ',', ' ', '$', '0', '9', ',', ' ', '$', '0', 'A', ',', ' ', '$', '0', 'B', ',', ' ', '$', '0', 'C', ',', ' ', '$', '0', 'D', ',', ' ', '$', '0', 'E', ',', ' ', '$', '0', 'F'] ++ [chLF] ++
    txt ['D', 'C', '.', 'B', ' ', '$', '1', '0'] ++ [chLF] := by decide +kernel
/-- V50: an empty listing is done in one block step. -/
theorem test_asm_empty : (play [.start { cmdw := 0x20#6, addr := 0, len := 0 }, .blockStep] idle).phase = .done := by decide +kernel
/-- V64: ignored while `BUSY`. -/
theorem test_start_while_busy : play [.start { cmdw := 0x20#6, addr := 0, len := 5 }] srecData = srecData := by decide +kernel
/-- V65: reset in the middle of an operation; the sink keeps what it has. -/
theorem test_reset_while_busy : (fun t : State => (t.phase, t.out, t.errcode, t.rx.length)) (play (takes 21 ++ [.rst none]) srecData) =
    (.idle, [], 0, 21) := by decide +kernel
/-- R63: the last transfer enters `DONE`. -/
theorem test_done : (fun t : State => (t.phase, t.sent, t.rx == t.out)) recDone = (.done, 13, true) := by decide +kernel
/-- V66: the old text is gone after a fault. -/
theorem test_fault_after_done : got? (exec (.recK2 0 0) recDone) (fun t => (t.phase, t.errcode, t.out, t.kind)) = some (.err, 1, [], 2) := by
  decide +kernel
/-- V60. -/
theorem test_reset_outputs : (fun p : OutPorts => (p.busy, p.done, p.err, p.errcode, p.inRe, p.outValid, p.outLast)) (outPorts State.reset) =
    (false, false, false, 0, false, false, false) := by decide
/-- R188: `out_last` with the last character and not with the one before. -/
theorem test_out_last : ((outPorts recLastChar).outLast, (outPorts recLastChar).outChar, (outPorts (play (takes 11) recDraining)).outLast) =
    (true, chLF, false) := by decide +kernel
/-- R188: the read port asks for the offsets in order. -/
theorem test_in_addr : ((outPorts srecData).inAddr, (outPorts (play (supplies 3) srecData)).inAddr) = (0, 3) := by decide +kernel
/-- A write of `IN` is read back and leaves the byte beside it; writing 0 removes the cell. -/
theorem test_input_write : (Memory.read (Memory.write input17 3 0xEE#8) 3, Memory.read (Memory.write input17 3 0xEE#8) 4,
    Memory.write [(3, 0xEE#8)] 3 0#8) = (0xEE#8, 0x04#8, []) := by decide
/-- The opcode table's word, placed as the next move, is what the first step after reset runs. -/
theorem test_first_step : got? (step (State.reset.withFetchWord 8 0x30)) summary = some (.err, 6, 0) := by decide +kernel

/-! ## The invariants hold in the witness states -/

theorem fits_none (n : Nat) : Fits config n := by intro c h; cases h

/-- The fields of `Inv` about the traversal registers and the faults. -/
abbrev ChecksA (s : State) : Prop :=
  (s.resetSeen = true) ∧
  (s.len < 2 ^ s.cfg.lenW ∧ s.offset < 2 ^ s.cfg.lenW ∧ s.remaining < 2 ^ s.cfg.lenW) ∧
  (s.phase = .data ∨ s.phase = .cnt ∨ s.phase = .term ∨ s.phase = .asm → s.offset + s.remaining = s.len) ∧
  (s.phase = .data ∨ s.phase = .cnt ∨ s.phase = .term →
    s.reccnt.toNat = ceil16 s.offset ∧ (s.remaining ≠ 0 → s.offset % 16 = 0)) ∧
  (s.phase = .cnt ∨ s.phase = .term → s.remaining = 0 ∧ s.reccnt.toNat = ceil16 s.len) ∧
  (s.phase = .err ↔ s.errcode ≠ 0) ∧ (s.phase = .err → s.out = [])

/-- The fields of `Inv` about what the accept checked. -/
abbrev ChecksB (s : State) : Prop :=
  (s.sent ≤ s.out.length) ∧ (s.phase = .idle → s.out = []) ∧
  (s.phase = .asm → s.remaining ≠ 0 → s.offset % 16 = 0) ∧
  (s.phase = .record ∨ s.phase = .hdr → s.offset = 0 ∧ s.remaining = s.len ∧ s.reccnt = 0) ∧
  (s.phase = .record → s.op = 0b00#2 ∧ kindLegal s.kind = true ∧ lenLegal s.kind s.len = true) ∧
  (s.phase = .hdr ∨ s.phase = .data ∨ s.phase = .cnt ∨ s.phase = .term → s.op = 0b01#2 ∧ s.len ≤ 65536) ∧
  (s.phase = .asm → s.op = 0b10#2)

/-- The fields of `Inv` about the sink and the staged bytes. -/
abbrev ChecksC (s : State) : Prop :=
  (s.phase ≠ .idle → s.rx = s.out.take s.sent) ∧ (s.phase = .done → s.sent = s.out.length) ∧
  (s.got.length ≤ need s) ∧ (s.got = inSlice s (lineBase s) s.got.length) ∧
  (s.draining = true → (s.phase = .record ∨ s.phase = .term) ∧ s.sent < s.out.length)

theorem inv_of_checks {s : State} (hc : s.cfg = config) (ha : ChecksA s) (hb : ChecksB s) (hd : ChecksC s) :
    Inv s := by
  obtain ⟨a, a', b, c, d, e, f⟩ := ha
  obtain ⟨g, i, j, k, l, m, n⟩ := hb
  obtain ⟨o, p, q, r, t⟩ := hd
  exact ⟨a, a', b, c, d, e, f, g, i, j, k, l, m, n, fun _ => hc ▸ fits_none _, o, p, q, r, t⟩

theorem inv_idle : Inv idle := inv_of_checks (by decide +kernel) (by decide +kernel) (by decide +kernel) (by decide +kernel)
theorem inv_recAccepted : Inv recAccepted := inv_of_checks (by decide +kernel) (by decide +kernel) (by decide +kernel) (by decide +kernel)
theorem inv_recRead : Inv recRead := inv_of_checks (by decide +kernel) (by decide +kernel) (by decide +kernel) (by decide +kernel)
theorem inv_recDraining : Inv recDraining := inv_of_checks (by decide +kernel) (by decide +kernel) (by decide +kernel) (by decide +kernel)
theorem inv_recLastChar : Inv recLastChar := inv_of_checks (by decide +kernel) (by decide +kernel) (by decide +kernel) (by decide +kernel)
theorem inv_recDone : Inv recDone := inv_of_checks (by decide +kernel) (by decide +kernel) (by decide +kernel) (by decide +kernel)
theorem inv_srecHdr : Inv srecHdr := inv_of_checks (by decide +kernel) (by decide +kernel) (by decide +kernel) (by decide +kernel)
theorem inv_srecData : Inv srecData := inv_of_checks (by decide +kernel) (by decide +kernel) (by decide +kernel) (by decide +kernel)
theorem inv_srecDataRead : Inv srecDataRead := inv_of_checks (by decide +kernel) (by decide +kernel) (by decide +kernel) (by decide +kernel)
theorem inv_srecDataEnd : Inv srecDataEnd := inv_of_checks (by decide +kernel) (by decide +kernel) (by decide +kernel) (by decide +kernel)
theorem inv_srecCnt : Inv srecCnt := inv_of_checks (by decide +kernel) (by decide +kernel) (by decide +kernel) (by decide +kernel)
theorem inv_srecTerm : Inv srecTerm := inv_of_checks (by decide +kernel) (by decide +kernel) (by decide +kernel) (by decide +kernel)
theorem inv_srecDraining : Inv srecDraining := inv_of_checks (by decide +kernel) (by decide +kernel) (by decide +kernel) (by decide +kernel)
theorem inv_asmStart : Inv asmStart := inv_of_checks (by decide +kernel) (by decide +kernel) (by decide +kernel) (by decide +kernel)
theorem inv_asmRead : Inv asmRead := inv_of_checks (by decide +kernel) (by decide +kernel) (by decide +kernel) (by decide +kernel)
theorem inv_asmEnd : Inv asmEnd := inv_of_checks (by decide +kernel) (by decide +kernel) (by decide +kernel) (by decide +kernel)
theorem inv_asmTaken : Inv asmTaken := inv_of_checks (by decide +kernel) (by decide +kernel) (by decide +kernel) (by decide +kernel)
theorem inv_faulted : Inv faulted := inv_of_checks (by decide +kernel) (by decide +kernel) (by decide +kernel) (by decide +kernel)
theorem text_idle : TextInv idle := by
  simp only [TextInv, show idle.phase = .idle by decide +kernel]
  decide +kernel
theorem text_recAccepted : TextInv recAccepted := by
  simp only [TextInv, show recAccepted.phase = .record by decide +kernel]
  decide +kernel
theorem text_recDraining : TextInv recDraining := by
  simp only [TextInv, show recDraining.phase = .record by decide +kernel]
  decide +kernel
theorem text_recLastChar : TextInv recLastChar := by
  simp only [TextInv, show recLastChar.phase = .record by decide +kernel]
  decide +kernel
theorem text_srecHdr : TextInv srecHdr := by
  simp only [TextInv, show srecHdr.phase = .hdr by decide +kernel]
  decide +kernel
theorem text_srecData : TextInv srecData := by
  simp only [TextInv, show srecData.phase = .data by decide +kernel]
  decide +kernel
theorem text_srecCnt : TextInv srecCnt := by
  simp only [TextInv, show srecCnt.phase = .cnt by decide +kernel]
  decide +kernel
theorem text_srecDraining : TextInv srecDraining := by
  simp only [TextInv, show srecDraining.phase = .term by decide +kernel]
  decide +kernel
theorem text_asmEnd : TextInv asmEnd := by
  simp only [TextInv, show asmEnd.phase = .asm by decide +kernel]
  decide +kernel
theorem text_asmTaken : TextInv asmTaken := by
  simp only [TextInv, show asmTaken.phase = .asm by decide +kernel]
  decide +kernel

/-! ## Witnesses: the hypotheses of each obligation, clause by clause, at the boundary values -/

theorem ready_idle : Ready idle := by unfold Ready; decide +kernel
theorem ready_done : Ready recDone := by unfold Ready; decide +kernel
theorem ready_err : Ready faulted := by unfold Ready; decide +kernel
theorem ready_capped (c : Nat) : Ready (capped c) := ⟨rfl, rfl⟩
theorem fits_capped {c n : Nat} (h : n ≤ c) : Fits (capped c).cfg n := by intro d hd; cases hd; exact h
theorem not_fits_capped {c n : Nat} (h : c < n) : ¬ Fits (capped c).cfg n := fun hf => absurd (hf c rfl) (by omega)

theorem witness_DecodeOfEncodeIsTheCommand :
    (Instr.asm 15#4 0xFFFF#16 0xFFFFFFFF).wf 32 = true ∧ (Instr.recS0 0 255).wf 8 = true := by decide
theorem witness_DecodedImageIsTheEncoding :
    decode 32 [0x3F#8, 1#8, 2#8, 3#8, 4#8, 5#8, 6#8, 7#8] = .ok (.op3 15#4 0x0201#16 0x06050403, [7#8]) ∧
    decode 12 [0x3F#8, 1#8, 2#8, 0xFF#8, 0x0F#8] = .ok (.op3 15#4 0x0201#16 4095, []) := by decide +kernel
/-- The three clauses at their boundaries, the last where `LEN_W` is no multiple of 8. -/
theorem witness_WhatIsNoImageIsRefusedByName :
    ([0#8, 0#8, 0#8, 0#8, 0#8, 0#8] : List Byte).length < imageLength 32 ∧
    (imageLength 32 ≤ ([0#8, 0#8, 0#8, 0#8, 0#8, 0#8] : List Byte).length + 1 ∧ 0x40 ≤ (0x40#8).toNat) ∧
    (lenBytes 12 ≤ ([0x00#8, 0x10#8] : List Byte).length ∧ (0x3F#8).toNat < 0x40 ∧
      2 ^ 12 ≤ natOfBytes (([0x00#8, 0x10#8] : List Byte).take (lenBytes 12))) := by decide +kernel
/-- The clauses: a presented command, a table word for `LEN_W = 32` and one for `LEN_W = 8`, a silent host. -/
theorem witness_StepRunsThePresentedCommand :
    (∃ c i, Command.ofBytes idle.cfg.lenW [0x10#8, 0#8, 0#8, 17#8, 0#8, 0#8, 0#8] = .ok (c, []) ∧
      decode idle.cfg.lenW [0x10#8, 0#8, 0#8, 17#8, 0#8, 0#8, 0#8] = .ok (i, []) ∧
      ({ idle with moves := [.start c] } : State).moves = .start c :: []) ∧
    (∃ i, decodeWord idle.cfg.lenW 8 0x3F = some i) ∧ (∃ i, decodeWord narrow.cfg.lenW 8 0x3F = some i) ∧
    (idle.moves = [] ∧ idle.resetSeen = true) :=
  ⟨⟨_, _, rfl, rfl, rfl⟩, ⟨_, rfl⟩, ⟨_, rfl⟩, rfl, rfl⟩
theorem witness_NothingMovesBeforeTheFirstReset :
    unborn.resetSeen = false ∧ ∀ p, Move.take ≠ .rst p := ⟨rfl, fun _ h => by cases h⟩
theorem witness_LastMarksTheFinalCharacter :
    Inv recLastChar ∧ TextInv recLastChar ∧ recLastChar.busy = true ∧ recLastChar.sent < recLastChar.out.length := ⟨inv_recLastChar, text_recLastChar, by decide +kernel, by decide +kernel⟩
theorem witness_LastMarksTheFinalCharacter_not_last :
    Inv srecData ∧ TextInv srecData ∧ srecData.busy = true ∧ srecData.sent < srecData.out.length := ⟨inv_srecData, text_srecData, by decide +kernel, by decide +kernel⟩
theorem witness_AcceptStepOfEveryCommand :
    Ready recDone ∧ (Instr.recS1 0 17).wf recDone.cfg.lenW = true ∧ (Instr.recS1 0 16).wf recDone.cfg.lenW = true ∧
    check recDone.cfg (Instr.recS1 0 17).op (Instr.recS1 0 17).kind (Instr.recS1 0 17).len = some .payloadLengthRange ∧
    check recDone.cfg (Instr.recS1 0 16).op (Instr.recS1 0 16).kind (Instr.recS1 0 16).len = none :=
  ⟨ready_done, by decide +kernel, by decide +kernel, by decide +kernel, by decide +kernel⟩
/-- Each code at the boundary of its clause, and the next value outside it. -/
theorem witness_AcceptReportsTheFirstFault :
    Ready (capped 98) ∧
    [Instr.op3 0 0 0, .recK2 0 0, .recS0 0 253, .recS1 0 17, .recS5 0 1, .recS9 0 1, .srec 0 0 1048561, .srec 0 0 1048560,
      .srec 0 0 65537, .srec 0 0 65536, .srec 0 0 17, .asm 0 0 19, .asm 0 0 18, .recS0 0 44, .recS0 0 43].map
        (fun i => (i.wf (capped 98).cfg.lenW, got? (exec i (capped 98)) State.errcode)) =
      [6, 1, 4, 4, 4, 4, 2, 5, 5, 3, 3, 3, 0, 3, 0].map (fun e => (true, some e)) := ⟨ready_capped _, by decide +kernel⟩
/-- Every form at its largest legal length, where the text just fits, and one byte beyond it. -/
theorem witness_RecordFormsTakeTheirLegalLengths :
    ∀ f ∈ recordForms, Ready (capped (11 + 2 * f.2.2)) ∧ Fits (capped (11 + 2 * f.2.2)).cfg (11 + 2 * f.2.2) ∧
      f.2.2 + 1 < 2 ^ (capped (11 + 2 * f.2.2)).cfg.lenW := by
  intro f hf
  refine ⟨ready_capped _, fits_capped (Nat.le_refl _), ?_⟩
  simp only [recordForms, List.mem_cons, List.not_mem_nil, or_false] at hf
  rcases hf with rfl | rfl | rfl | rfl <;> decide +kernel
theorem witness_IllegalKindsTakeTheirFault : Ready idle ∧ 0 < 2 ^ idle.cfg.lenW ∧ illegalForms.length = 12 :=
  ⟨ready_idle, by decide +kernel, rfl⟩
theorem witness_ReservedOperationTakesItsFault : Ready recDone ∧ 0xFFFFFFFF < 2 ^ recDone.cfg.lenW :=
  ⟨ready_done, by decide +kernel⟩
/-- The four clauses at the ends of their ranges. -/
theorem witness_SrecIsAcceptedByItsLength :
    (Ready faulted ∧ 1048561 < 2 ^ faulted.cfg.lenW ∧ 1048560 < 1048561) ∧
    (65536 < 65537 ∧ 1048560 ≤ 1048560) ∧
    (Ready (capped 176170) ∧ 65536 < 2 ^ (capped 176170).cfg.lenW ∧
      ¬ Fits (capped 176170).cfg (43 + 11 * ceil16 65536 + 2 * 65536)) ∧
    Fits (capped 176171).cfg (43 + 11 * ceil16 65536 + 2 * 65536) :=
  ⟨⟨ready_err, by decide +kernel, by decide⟩, ⟨by decide, by decide⟩,
    ⟨ready_capped _, by decide +kernel, not_fits_capped (by decide)⟩, fits_capped (by decide)⟩
/-- V53 and V57: the text has 93 characters. -/
theorem witness_AsmIsAcceptedIfItFits :
    Ready (capped 92) ∧ Ready (capped 93) ∧ 17 < 2 ^ (capped 92).cfg.lenW ∧
    ¬ Fits (capped 92).cfg (ceil16 17 * (capped 92).cfg.asmPrefix.length + 5 * 17 - ceil16 17) ∧
    Fits (capped 93).cfg (ceil16 17 * (capped 93).cfg.asmPrefix.length + 5 * 17 - ceil16 17) :=
  ⟨ready_capped _, ready_capped _, by decide +kernel, not_fits_capped (by decide), fits_capped (by decide)⟩
theorem witness_StartWhileBusyIsIgnored :
    srecData.resetSeen = true ∧ srecData.busy = true ∧ (Instr.asm 0 0 5).wf srecData.cfg.lenW = true := by decide +kernel
/-- One beyond the last value of `LEN_W` bits, with `LEN_W` 32 and 8. -/
theorem witness_WiderThanLenWIsRefusedByName :
    (idle.resetSeen = true ∧ idle.busy = false ∧ 2 ^ idle.cfg.lenW ≤ (Instr.asm 0 0 4294967296).len) ∧
    (narrow.resetSeen = true ∧ narrow.busy = false ∧ 2 ^ narrow.cfg.lenW ≤ 256) := by decide +kernel
theorem witness_CommandFrame : ∃ t, exec (.recS9 0 0) recDone = .next t :=
  ⟨_, (exec_eq_startCommand _ _).trans (by simp only [startCommand, ready_done.1, ready_done.2]; rfl)⟩
theorem witness_AcceptForgetsTheEarlierOperation : Ready recDone ∧ Ready faulted ∧ faulted.cfg = recDone.cfg ∧ (Instr.srec 0 0 17).wf recDone.cfg.lenW = true ∧
      faulted.phase ≠ recDone.phase :=
  ⟨ready_done, ready_err, by decide +kernel, by decide +kernel, by decide +kernel⟩
/-- The longest payload, for every statement about a record line with a bound. -/
theorem witness_record_line_bound : (List.replicate 252 0xFF#8 : List Byte).length ≤ 252 := by decide +kernel
theorem witness_RecordLineFieldsStandInOrder :
    (List.replicate 252 0xFF#8 : List Byte).length ≤ 252 ∧ (List.replicate 252 0xFF#8 : List Byte)[251]? = some 0xFF#8 := by decide +kernel
theorem witness_RecordLineLength :
    (List.replicate 252 0xFF#8 : List Byte).length = 252 ∧ (List.replicate 16 0xFF#8 : List Byte).length = 16 ∧ tag.bytes.length = 5 ∧
    ([] : List Byte).length = 0 := by decide +kernel
theorem witness_ChecksumIdentity : (bytes [0x00, 0xFF]).length ≤ 252 := by decide
theorem witness_DatapathBuildsTheLine : (bytes [0x00, 0xFF]).length ≤ 252 := by decide
theorem witness_RecordLineDeterminesItsFields :
    ([] : List Byte).length ≤ 252 ∧ recordLine 1#4 0xFFFF#16 [] = recordLine 1#4 0xFFFF#16 [] := ⟨by decide, rfl⟩
theorem witness_ListingLineFieldsStandInOrder :
    (1 ≤ (bytes [7]).length ∧ (bytes [7]).length ≤ 16 ∧ (bytes [7])[0]? = some 7#8) ∧
    (1 ≤ (List.replicate 16 7#8 : List Byte).length ∧ (List.replicate 16 7#8 : List Byte).length ≤ 16 ∧
      14 + 1 < (List.replicate 16 7#8 : List Byte).length ∧ (List.replicate 16 7#8 : List Byte)[15]? = some 7#8) := by decide
theorem witness_SrecTextLength : (List.replicate 65536 0#8 : List Byte).length ≤ 65536 := List.length_replicate.le
theorem witness_AsmTextLength : config.prefixNoNewline = true := by decide
theorem witness_ChunkLaw : (bytes (List.range 17)) ≠ [] ∧ 0 + 1 < ceil16 (bytes (List.range 17)).length ∧ 1 < ceil16 (bytes (List.range 17)).length := by
  decide
theorem witness_RecordStepEmitsItsLine :
    Inv recRead ∧ recRead.phase = .record ∧ recRead.draining = false ∧ recRead.got.length = recRead.len :=
  ⟨inv_recRead, by decide +kernel, by decide +kernel, by decide +kernel⟩
theorem witness_HeaderStepEmitsTheTag : srecHdr.resetSeen = true ∧ srecHdr.phase = .hdr := by decide +kernel
theorem witness_DataStepEmitsOneChunk :
    (Inv srecDataEnd ∧ srecDataEnd.phase = .data ∧ srecDataEnd.remaining = 0) ∧
    (Inv srecDataRead ∧ srecDataRead.phase = .data ∧ srecDataRead.remaining ≠ 0 ∧
      srecDataRead.got.length = min 16 srecDataRead.remaining) :=
  ⟨⟨inv_srecDataEnd, by decide +kernel, by decide +kernel⟩, inv_srecDataRead, by decide +kernel, by decide +kernel, by decide +kernel⟩
theorem witness_CountStepEmitsTheRecordCount : Inv srecCnt ∧ srecCnt.phase = .cnt := ⟨inv_srecCnt, by decide +kernel⟩
theorem witness_TerminatorStepEmitsTheConstantLine : Inv srecTerm ∧ srecTerm.phase = .term ∧ srecTerm.draining = false :=
  ⟨inv_srecTerm, by decide +kernel, by decide +kernel⟩
theorem witness_AsmStepEmitsOneGroup :
    (Inv asmTaken ∧ asmTaken.phase = .asm ∧ asmTaken.remaining = 0 ∧ asmTaken.sent = asmTaken.out.length) ∧
    (Inv asmRead ∧ asmRead.phase = .asm ∧ asmRead.remaining ≠ 0 ∧ asmRead.got.length = min 16 asmRead.remaining) :=
  ⟨⟨inv_asmTaken, by decide +kernel, by decide +kernel, by decide +kernel⟩, inv_asmRead, by decide +kernel, by decide +kernel,
    by decide +kernel⟩
theorem witness_WaitingChangesNothing :
    (srecData.resetSeen = true ∧ inRe srecData = true) ∧
    (recDraining.resetSeen = true ∧ recDraining.phase = .record ∧ recDraining.draining = true) ∧
    (srecDraining.resetSeen = true ∧ srecDraining.phase = .term ∧ srecDraining.draining = true) ∧
    (asmEnd.resetSeen = true ∧ asmEnd.phase = .asm ∧ asmEnd.remaining = 0 ∧ asmEnd.sent ≠ asmEnd.out.length) ∧
    (recDone.resetSeen = true ∧ recDone.busy = false) := by decide +kernel
theorem witness_TakeHandsOverOneCharacter :
    (Inv recLastChar ∧ recLastChar.out[recLastChar.sent]? = some 0x0A#8 ∧ recLastChar.draining = true ∧
      recLastChar.sent + 1 = recLastChar.out.length) ∧
    (Inv asmEnd ∧ asmEnd.out[asmEnd.sent]? = some 0x44#8 ∧ asmEnd.draining = false) ∧
    (Inv asmTaken ∧ asmTaken.sent = asmTaken.out.length) :=
  ⟨⟨inv_recLastChar, by decide +kernel, by decide +kernel, by decide +kernel⟩,
    ⟨inv_asmEnd, by decide +kernel, by decide +kernel⟩, inv_asmTaken, by decide +kernel⟩
theorem witness_SupplyReadsTheNextByte : (Inv srecData ∧ inRe srecData = true) ∧ (Inv srecDataRead ∧ inRe srecDataRead = false) :=
  ⟨⟨inv_srecData, by decide +kernel⟩, inv_srecDataRead, by decide +kernel⟩
theorem witness_HostOwnsTheInput :
    (idle.resetSeen = true ∧ idle.busy = false ∧ 0xFFFFFFFF < 2 ^ idle.cfg.lenW ∧ Memory.wf idle.cfg.lenW idle.input = true) ∧ (asmEnd.resetSeen = true ∧ asmEnd.busy = true) := by
  decide +kernel

/-- A next state with a value read off it. -/
theorem next_with {α : Type} {o : Host.Outcome State Fault Refusal} {f : State → α} {v : α} (h : got? o f = some v) :
    ∃ t, o = .next t ∧ f t = v := by
  cases o with
  | next t => exact ⟨t, rfl, by simpa [got?] using h⟩
  | fault r => simp [got?] at h
  | refused r => simp [got?] at h

/-- The same state with moves to come. -/
abbrev withMoves (ms : List Move) (s : State) : State := { s with moves := ms }

/-- The invariant says nothing about the moves to come. -/
theorem inv_moves {s : State} (h : Inv s) (ms : List Move) : Inv (withMoves ms s) :=
  ⟨h.reset, h.widths, h.split, h.count, h.countAll, h.errIff, h.errOut, h.sentLe, h.idleOut, h.asmAligned, h.fresh, h.recordOp, h.srecOp,
    h.asmOp, h.fits, h.rxIs, h.doneSent, h.gotLe, h.gotIs, h.drainIn⟩

theorem text_moves {s : State} (h : TextInv s) (ms : List Move) : TextInv (withMoves ms s) := h

theorem witness_EveryStepKeepsTheInvariants :
    (Inv srecHdr ∧ ∃ t, step srecHdr = .next t ∧ t.phase = .data) ∧
    (Inv (withMoves [.take] recLastChar) ∧ ∃ t, step (withMoves [.take] recLastChar) = .next t ∧ t.phase = .done) :=
  ⟨⟨inv_srecHdr, next_with (by decide +kernel)⟩, inv_moves inv_recLastChar _, next_with (by decide +kernel)⟩
theorem witness_EveryStepKeepsTheText :
    Inv srecCnt ∧ TextInv srecCnt ∧ ∃ t, step srecCnt = .next t ∧ t.phase = .term :=
  ⟨inv_srecCnt, text_srecCnt, next_with (by decide +kernel)⟩
theorem witness_DoneMeansTheWholeText :
    (Inv (withMoves [.take] recLastChar) ∧ TextInv (withMoves [.take] recLastChar) ∧ (withMoves [.take] recLastChar).busy = true ∧
      ∃ t, step (withMoves [.take] recLastChar) = .next t ∧ t.phase = .done) ∧
    (Inv asmTaken ∧ TextInv asmTaken ∧ asmTaken.busy = true ∧ ∃ t, step asmTaken = .next t ∧ t.phase = .done) :=
  ⟨⟨inv_moves inv_recLastChar _, text_moves text_recLastChar _, by decide +kernel, next_with (by decide +kernel)⟩,
    inv_asmTaken, text_asmTaken, by decide +kernel, next_with (by decide +kernel)⟩
theorem witness_EveryStepKeepsTheInputCanonical :
    Memory.wf idle.cfg.lenW idle.input = true ∧ ∃ t, step (withMoves [.setInput 3 0#8] idle) = .next t ∧ Memory.read t.input 3 = 0#8 :=
  ⟨by decide +kernel, next_with (f := fun t : State => Memory.read t.input 3) (by decide +kernel)⟩
/-- One state for each transfer of the graph. -/
theorem witness_PhaseGraph :
    (Inv (withMoves [.rst none] srecData) ∧ ∃ t, step (withMoves [.rst none] srecData) = .next t ∧ t.phase = .idle) ∧
    (Inv (withMoves [.start { cmdw := 0x10#6, addr := 0, len := 17 }] faulted) ∧
      ∃ t, step (withMoves [.start { cmdw := 0x10#6, addr := 0, len := 17 }] faulted) = .next t ∧ t.phase = .hdr) ∧
    (Inv (withMoves [.start { cmdw := 0x02#6, addr := 0, len := 0 }] recDone) ∧
      ∃ t, step (withMoves [.start { cmdw := 0x02#6, addr := 0, len := 0 }] recDone) = .next t ∧ t.phase = .err) ∧
    (Inv srecHdr ∧ ∃ t, step srecHdr = .next t ∧ t.phase = .data) ∧
    (Inv srecDataEnd ∧ ∃ t, step srecDataEnd = .next t ∧ t.phase = .cnt) ∧
    (Inv (withMoves [.blockStep] srecCnt) ∧ ∃ t, step (withMoves [.blockStep] srecCnt) = .next t ∧ t.phase = .term) ∧
    (Inv asmTaken ∧ ∃ t, step asmTaken = .next t ∧ t.phase = .done) ∧
    (Inv (withMoves [.take] recLastChar) ∧ ∃ t, step (withMoves [.take] recLastChar) = .next t ∧ t.phase = .done) :=
  ⟨⟨inv_moves inv_srecData _, next_with (by decide +kernel)⟩, ⟨inv_moves inv_faulted _, next_with (by decide +kernel)⟩,
    ⟨inv_moves inv_recDone _, next_with (by decide +kernel)⟩, ⟨inv_srecHdr, next_with (by decide +kernel)⟩,
    ⟨inv_srecDataEnd, next_with (by decide +kernel)⟩, ⟨inv_moves inv_srecCnt _, next_with (by decide +kernel)⟩,
    ⟨inv_asmTaken, next_with (by decide +kernel)⟩, inv_moves inv_recLastChar _, next_with (by decide +kernel)⟩
theorem witness_CommandRegistersAreWrittenAtAccept :
    ∃ t, step (withMoves [.start { cmdw := 0x1F#6, addr := 0xFFFF#16, len := 17 }] recDone) = .next t ∧ t.kind = 15#4 :=
  next_with (by decide +kernel)
theorem witness_InputAndParametersAreTheHosts :
    ∃ t, step (withMoves [.setInput 0xFFFFFFFF 7#8] recDone) = .next t ∧ Memory.read t.input 0xFFFFFFFF = 7#8 :=
  next_with (f := fun t : State => Memory.read t.input 0xFFFFFFFF) (by decide +kernel)
theorem witness_OutputIsAppendOnly :
    srecHdr.busy = true ∧ (∃ t, step srecHdr = .next t ∧ t.out.length = 21) ∧ ∀ p more, srecHdr.moves ≠ .rst p :: more :=
  ⟨by decide +kernel, next_with (f := fun t : State => t.out.length) (by decide +kernel), by
    rw [show srecHdr.moves = [] by decide +kernel]; intro p more h; cases h⟩
theorem witness_NoMoveStopsTheMachine : Inv srecData ∧ srecData.busy = true := ⟨inv_srecData, by decide +kernel⟩
theorem witness_EveryMoveIsProgressOrWaiting : Inv srecData ∧ TextInv srecData ∧ srecData.busy = true ∧ workLeft srecData = 121 :=
  ⟨inv_srecData, text_srecData, by decide +kernel, by decide +kernel⟩
theorem witness_RecordRunsToItsLine :
    Ready (capped 43) ∧ 16 < 2 ^ (capped 43).cfg.lenW ∧ 16 ≤ 16 ∧ Fits (capped 43).cfg (11 + 2 * 16) :=
  ⟨ready_capped _, by decide +kernel, by decide, fits_capped (by decide)⟩
theorem witness_SrecRunsToItsText :
    Ready (capped 176171) ∧ 65536 < 2 ^ (capped 176171).cfg.lenW ∧ 65536 ≤ 65536 ∧
    Fits (capped 176171).cfg (43 + 11 * ceil16 65536 + 2 * 65536) :=
  ⟨ready_capped _, by decide +kernel, by decide, fits_capped (by decide)⟩
theorem witness_AsmRunsToItsListing :
    (Ready (capped 0) ∧ 0 < 2 ^ (capped 0).cfg.lenW ∧ Fits (capped 0).cfg (ceil16 0 * (capped 0).cfg.asmPrefix.length + 5 * 0 - ceil16 0)) ∧
    (Ready narrow ∧ 255 < 2 ^ narrow.cfg.lenW ∧ Fits narrow.cfg (ceil16 255 * narrow.cfg.asmPrefix.length + 5 * 255 - ceil16 255)) :=
  ⟨⟨ready_capped _, by decide +kernel, fits_capped (by decide)⟩, ⟨rfl, rfl⟩, by decide +kernel, fun _ h => by cases h⟩

end Sys2Proof.Tests
end

/-! The build parameters and the width of the ports (`00_scope.md` R7). -/

namespace Sys2Proof

/-! ## The parameters of this build -/

/-- A seven-bit character on eight bits keeps R7's bound. -/
theorem toNat_setWidth_le_0x7F (b : BitVec 7) : (b.setWidth 8).toNat ≤ 0x7F := by
  have hb : b.toNat < 2 ^ 7 := b.isLt
  rw [BitVec.toNat_setWidth_of_le (by decide)]
  omega

/-- A seven-bit character on eight bits is the newline only where it was. -/
theorem setWidth_ne_newline {b : BitVec 7} (h : b ≠ 0x0A#7) : b.setWidth 8 ≠ 0x0A#8 := by
  intro e
  have hn : (b.setWidth 8).toNat = 10 := congrArg BitVec.toNat e
  rw [BitVec.toNat_setWidth_of_le (by decide)] at hn
  exact h (BitVec.eq_of_toNat_eq hn)

/-- The OPEN tag bytes keep their bound, each being seven bits wide. -/
theorem Config.tagWf_build : Config.build.tagWf = true := by
  simp only [Config.tagWf, HdrTag.bytes, Config.build, List.all_cons, List.all_nil, toNat_setWidth_le_0x7F,
    decide_true, Bool.and_self]

/-- The OPEN prefix keeps its bound, each character being seven bits wide. -/
theorem Config.prefixWf_build : Config.build.prefixWf = true := by
  simp only [Config.prefixWf, Config.build, List.all_map, List.all_eq_true, Function.comp_apply, decide_eq_true_eq]
  exact fun b _ => toNat_setWidth_le_0x7F b

/-- The OPEN prefix holds no newline, the build having dropped them. -/
theorem Config.prefixNoNewline_build : Config.build.prefixNoNewline = true := by
  simp only [Config.prefixNoNewline, Config.build, List.all_map, List.all_eq_true, Function.comp_apply, bne_iff_ne,
    List.mem_filter]
  exact fun b ⟨_, hb⟩ => setWidth_ne_newline hb

/-- The parameters of this build meet all of R7's constraints. -/
theorem Config.wf_build : Config.build.wf = true := by
  have hlen : Config.build.lenWWf = true := rfl
  simp only [Config.wf, Config.tagWf_build, Config.prefixWf_build, Config.prefixNoNewline_build, hlen, Bool.and_self]

/-- Settles O10: seven bits a character keep the bound, and the filter keeps the newline out, whatever the OPEN values are. -/
theorem buildParametersMeetTheirConstraints : Obligations.BuildParametersMeetTheirConstraints :=
  ⟨Config.wf_build, by decide, rfl, rfl⟩

end Sys2Proof

/-! ## The width of the ports -/

namespace Sys2Proof.Machine

/-- What `LEN_W` bits do not carry. -/
theorem lenFits_eq_false_iff {w l : Nat} : lenFits w l = false ↔ 2 ^ w ≤ l := by simp [lenFits]

/-- After the first reset a command whose `LEN` the port does not carry is refused, `BUSY` or not (R70, log 5). -/
theorem exec_of_wide {i : Instr} {s : State} (hr : s.resetSeen = true) (hl : 2 ^ s.cfg.lenW ≤ i.len) :
    exec i s = .refused .widerThanLenW := by
  have hw : lenFits s.cfg.lenW i.len = false := lenFits_eq_false_iff.mpr hl
  rw [exec_eq_startCommand]
  rcases startCommand_cases i.op i.kind i.addr i.len s with ⟨h, _⟩ | ⟨_, _, e⟩ | ⟨_, h, _⟩ | ⟨_, h, _⟩
  · simp [hr] at h
  · exact e
  · simp [hw] at h
  · simp [hw] at h

/-- Outside `BUSY` a change of `IN` at an offset that `LEN_W` bits do not hold is refused (R50, log 5). -/
theorem setInput_of_wide {a : Nat} {s : State} (b : Byte) (hb : s.busy = false) (ha : 2 ^ s.cfg.lenW ≤ a) :
    setInput a b s = .refused .widerThanLenW := by
  have hw : lenFits s.cfg.lenW a = false := lenFits_eq_false_iff.mpr ha
  rcases setInput_cases a b s with ⟨h, _⟩ | ⟨_, _, e⟩ | ⟨_, h, _⟩
  · simp [hb] at h
  · exact e
  · simp [hw] at h

end Sys2Proof.Machine

namespace Sys2Proof

open Machine

/-- Settles O59: the width check stands before every other check of a `Start` but that of the first reset, and before
every write of `IN` outside `BUSY`. -/
theorem widerThanLenWIsRefusedByName : Obligations.WiderThanLenWIsRefusedByName := by
  refine ⟨fun i s hr => ⟨?_, exec_of_wide hr⟩, fun a b s hr hb ha => ?_⟩
  · rw [wf_eq_lenFits, lenFits_iff]
  · exact (afterReset_of_seen hr _).trans (setInput_of_wide b hb ha)

end Sys2Proof

/-! The state: its status view, its registers at reset and at accept, and the invariants of R32 (`10_state.md`). -/

namespace Sys2Proof.Machine

/-! ## The status view -/

/-- The phases `STATUS = 0`, 2 and 3 stand for, one each (R22); 1 is `BUSY`. -/
theorem status_view (s : State) :
    (s.status = 0 ↔ s.phase = .idle) ∧ (s.status = 2 ↔ s.phase = .done) ∧ (s.status = 3 ↔ s.phase = .err) := by
  unfold State.status
  cases s.phase <;> decide

/-! The pins are the decodes of `STATUS` (R23). -/

theorem busy_iff_status (s : State) : s.busy = true ↔ s.status = 1 := beq_iff_eq
theorem doneFlag_iff_status (s : State) : s.doneFlag = true ↔ s.status = 2 := beq_iff_eq
theorem errFlag_iff_status (s : State) : s.errFlag = true ↔ s.status = 3 := beq_iff_eq

/-- At most one pin is 1 (R187). -/
theorem pins_exclusive (s : State) : ¬ (s.busy = true ∧ s.doneFlag = true) ∧ ¬ (s.busy = true ∧ s.errFlag = true) ∧
    ¬ (s.doneFlag = true ∧ s.errFlag = true) := by
  simp only [busy_iff_status, doneFlag_iff_status, errFlag_iff_status]
  refine ⟨?_, ?_, ?_⟩ <;> rintro ⟨h, h'⟩ <;> rw [h] at h' <;> exact absurd h' (by decide)

/-- All pins are 0 exactly in `IDLE` (R187). -/
theorem pins_low_iff (s : State) : s.busy = false ∧ s.doneFlag = false ∧ s.errFlag = false ↔ s.phase = .idle := by
  obtain ⟨-, hdone, herr⟩ := status_view s
  simp only [not_busy_iff, ← Bool.not_eq_true s.doneFlag, ← Bool.not_eq_true s.errFlag, doneFlag_iff_status,
    errFlag_iff_status, hdone, herr]
  cases s.phase <;> simp

/-! ## The fields of a command on the ports -/

/-- The four values of `OP` (R72). -/
theorem op_cases : ∀ o : BitVec 2, o = 0b00#2 ∨ o = 0b01#2 ∨ o = 0b10#2 ∨ o = 0b11#2 := by decide

/-- A `REC` command of each of the sixteen kinds carries its kind and its operands (R73). -/
theorem decodeRecord_fields (k : BitVec 4) (a : Address) (l : Nat) :
    (decodeRecord k a l).op = 0b00#2 ∧ (decodeRecord k a l).kind = k ∧ (decodeRecord k a l).addr = a ∧
      (decodeRecord k a l).len = l := by
  obtain ⟨⟨n, hn⟩⟩ := k
  interval_cases n <;> exact ⟨rfl, rfl, rfl, rfl⟩

/-- The command decoded from the ports carries the values on them (R70, R71). -/
theorem decodeCommand_fields (c : Command) :
    (decodeCommand c).op = c.op ∧ (decodeCommand c).kind = c.kind ∧ (decodeCommand c).addr = c.addr ∧
      (decodeCommand c).len = c.len := by
  unfold decodeCommand
  rcases op_cases c.op with h | h | h | h <;> rw [h]
  · exact decodeRecord_fields _ _ _
  all_goals exact ⟨rfl, rfl, rfl, rfl⟩

/-! ## The accept checks -/

/-- The last check passes exactly where the text fits (R194). -/
theorem checkCapacity_eq_none {cfg : Config} {n : Nat} : checkCapacity cfg n = none ↔ Fits cfg n := by
  unfold checkCapacity Fits
  cases cfg.outCap <;> simp

theorem checkRecord_eq_none {cfg : Config} {k : BitVec 4} {l : Nat} :
    checkRecord cfg k l = none ↔ kindLegal k = true ∧ lenLegal k l = true ∧ Fits cfg (recordLength l) := by
  unfold checkRecord
  cases kindLegal k <;> cases lenLegal k l <;> simp [checkCapacity_eq_none]

theorem checkSrec_eq_none {cfg : Config} {l : Nat} :
    checkSrec cfg l = none ↔ l ≤ 65536 ∧ Fits cfg (srecLength l) := by
  unfold checkSrec
  split
  · next hl => simp only [reduceCtorEq, false_iff]; omega
  · split
    · next hl => simp only [reduceCtorEq, false_iff]; omega
    · next hl => simp [checkCapacity_eq_none, Nat.le_of_not_lt hl]

/-- A command passes every check exactly where it is a `REC`, `SREC` or `ASM` within its limits whose text fits (R191). -/
theorem check_eq_none {cfg : Config} {o : BitVec 2} {k : BitVec 4} {l : Nat} :
    check cfg o k l = none ↔
      (o = 0b00#2 ∧ kindLegal k = true ∧ lenLegal k l = true ∧ Fits cfg (recordLength l)) ∨
      (o = 0b01#2 ∧ l ≤ 65536 ∧ Fits cfg (srecLength l)) ∨
      (o = 0b10#2 ∧ Fits cfg (asmLength cfg l)) := by
  rcases op_cases o with rfl | rfl | rfl | rfl <;>
    simp [check, checkRecord_eq_none, checkSrec_eq_none, checkAsm, checkCapacity_eq_none]

/-! ## `Inv` by phase -/

/-- What `Inv` says whatever `PHASE` is. -/
structure Steady (s : State) : Prop where
  reset : s.resetSeen = true
  widths : s.len < 2 ^ s.cfg.lenW ∧ s.offset < 2 ^ s.cfg.lenW ∧ s.remaining < 2 ^ s.cfg.lenW
  sentLe : s.sent ≤ s.out.length
  gotLe : s.got.length ≤ need s
  gotIs : s.got = inSlice s (lineBase s) s.got.length

/-- What `Inv` says in every phase of `BUSY`. -/
def Running (s : State) : Prop := s.errcode = 0 ∧ Fits s.cfg (opLength s) ∧ s.rx = s.out.take s.sent

/-- The traversal registers are as accept left them (R184). -/
def Fresh (s : State) : Prop := s.offset = 0 ∧ s.remaining = s.len ∧ s.reccnt = 0

/-- While the block waits for the sink something is left to take (R63). -/
def Awaited (s : State) : Prop := s.draining = true → s.sent < s.out.length

/-- What `Inv` says of a state in phase `p`, beside `Steady`. -/
def PhaseFacts (p : Phase) (s : State) : Prop :=
  match p with
  | .idle => s.errcode = 0 ∧ s.draining = false ∧ s.out = []
  | .record => Running s ∧ Awaited s ∧ Fresh s ∧
      s.op = 0b00#2 ∧ kindLegal s.kind = true ∧ lenLegal s.kind s.len = true
  | .hdr => Running s ∧ s.draining = false ∧ (s.op = 0b01#2 ∧ s.len ≤ 65536) ∧ Fresh s
  | .data => Running s ∧ s.draining = false ∧ (s.op = 0b01#2 ∧ s.len ≤ 65536) ∧ s.offset + s.remaining = s.len ∧
      s.reccnt.toNat = ceil16 s.offset ∧ (s.remaining ≠ 0 → s.offset % 16 = 0)
  | .cnt => Running s ∧ s.draining = false ∧ (s.op = 0b01#2 ∧ s.len ≤ 65536) ∧
      s.offset = s.len ∧ s.remaining = 0 ∧ s.reccnt.toNat = ceil16 s.len
  | .term => Running s ∧ Awaited s ∧ (s.op = 0b01#2 ∧ s.len ≤ 65536) ∧
      s.offset = s.len ∧ s.remaining = 0 ∧ s.reccnt.toNat = ceil16 s.len
  | .asm => Running s ∧ s.draining = false ∧ s.op = 0b10#2 ∧ s.offset + s.remaining = s.len ∧
      (s.remaining ≠ 0 → s.offset % 16 = 0)
  | .done => s.errcode = 0 ∧ s.draining = false ∧ s.rx = s.out.take s.sent ∧ s.sent = s.out.length
  | .err => s.errcode ≠ 0 ∧ s.draining = false ∧ s.out = [] ∧ s.rx = []

section
variable {s : State}

/-- The facts of a state whose phase is known. -/
theorem PhaseFacts.of_phase (h : PhaseFacts s.phase s) {p : Phase} (e : s.phase = p) : PhaseFacts p s := e ▸ h

theorem PhaseFacts.running (h : PhaseFacts s.phase s) (hb : s.busy = true) : Running s := by
  rcases (busy_iff s).mp hb with e | e | e | e | e | e <;> exact (h.of_phase e).1

theorem PhaseFacts.awaited (h : PhaseFacts s.phase s) (hd : s.draining = true) :
    (s.phase = .record ∨ s.phase = .term) ∧ s.sent < s.out.length := by
  cases e : s.phase <;> rw [e] at h <;> simp_all [PhaseFacts, Awaited]

theorem PhaseFacts.rxIs (h : PhaseFacts s.phase s) (hp : s.phase ≠ .idle) : s.rx = s.out.take s.sent := by
  cases hb : s.busy with
  | true =>
    obtain ⟨-, -, hrx⟩ := h.running hb
    exact hrx
  | false =>
    rcases (not_busy_iff s).mp hb with e | e | e
    · exact absurd e hp
    · obtain ⟨-, -, hrx, -⟩ := h.of_phase e
      exact hrx
    · obtain ⟨-, -, hout, hrx⟩ := h.of_phase e
      simp [hout, hrx]

theorem PhaseFacts.errIff (h : PhaseFacts s.phase s) : s.phase = .err ↔ s.errcode ≠ 0 := by
  cases hb : s.busy with
  | true =>
    have hn : s.phase ≠ .err := by intro e; simp [busy_iff, e] at hb
    simp [hn, (h.running hb).1]
  | false =>
    rcases (not_busy_iff s).mp hb with e | e | e
    · simp [e, (h.of_phase e).1]
    · simp [e, (h.of_phase e).1]
    · exact iff_of_true e (h.of_phase e).1

/-- `Inv` from what it says in every phase and what it says of the phase the state is in. -/
theorem inv_of_phaseFacts (h : Steady s) (hp : PhaseFacts s.phase s) : Inv s :=
  { h with
    errIff := hp.errIff
    rxIs := hp.rxIs
    drainIn := hp.awaited
    fits := fun hb => have ⟨_, hfits, _⟩ := hp.running hb; hfits
    split := by rintro (e | e | e | e) <;> have hf := hp.of_phase e <;> rw [PhaseFacts] at hf <;> omega
    count := by rintro (e | e | e) <;> have hf := hp.of_phase e <;> rw [PhaseFacts] at hf <;> simp_all
    countAll := by rintro (e | e) <;> have hf := hp.of_phase e <;> rw [PhaseFacts] at hf <;> simp [hf]
    errOut := fun e => have ⟨_, _, hout, _⟩ := hp.of_phase e; hout
    idleOut := fun e => have ⟨_, _, hout⟩ := hp.of_phase e; hout
    asmAligned := fun e => have ⟨_, _, _, _, halign⟩ := hp.of_phase e; halign
    fresh := fun
      | .inl e => have ⟨_, _, hfresh, _⟩ := hp.of_phase e; hfresh
      | .inr e => have ⟨_, _, _, hfresh⟩ := hp.of_phase e; hfresh
    recordOp := fun e => have ⟨_, _, _, hop⟩ := hp.of_phase e; hop
    srecOp := by rintro (e | e | e | e) <;> obtain ⟨-, -, hop, -⟩ := hp.of_phase e <;> exact hop
    asmOp := fun e => have ⟨_, _, hop, _⟩ := hp.of_phase e; hop
    doneSent := fun e => have ⟨_, _, _, hsent⟩ := hp.of_phase e; hsent }

theorem Inv.running (h : Inv s) (hb : s.busy = true) : Running s := by
  have hp := (busy_iff s).mp hb
  have he : ¬ s.phase = .err := by intro e; simp [e] at hp
  exact ⟨by simpa [he] using h.errIff, h.fits hb, h.rxIs (by intro e; simp [e] at hp)⟩

/-- Only in the phases of a last line can the block wait for the sink (R63). -/
theorem Inv.draining_eq_false (h : Inv s) (hr : s.phase ≠ .record) (ht : s.phase ≠ .term) : s.draining = false := by
  by_contra hd
  rcases (h.drainIn (by simpa using hd)).1 with e | e
  · exact hr e
  · exact ht e

/-- Nothing is staged where the line in progress renders nothing of `IN`. -/
theorem Inv.got_eq_nil (h : Inv s) (hn : need s = 0) : s.got = [] :=
  List.eq_nil_of_length_eq_zero (Nat.eq_zero_of_le_zero (hn ▸ h.gotLe))

/-- A state with nothing staged is `Steady` by its widths and its `SENT`. -/
theorem steady_of_got_nil (hg : s.got = []) (hr : s.resetSeen = true)
    (hw : s.len < 2 ^ s.cfg.lenW ∧ s.offset < 2 ^ s.cfg.lenW ∧ s.remaining < 2 ^ s.cfg.lenW)
    (hs : s.sent ≤ s.out.length) : Steady s :=
  ⟨hr, hw, hs, by simp [hg], by simp [hg]⟩

end

/-! ## Every operation on the state keeps `Inv` -/

section
variable {s : State}

theorem popMove_keeps_inv (h : Inv s) (r : List Move) : Inv (s.popMove r) := { h with }

/-- A phase may be entered with nothing staged and its facts in place. -/
theorem setPhase_keeps_inv (h : Inv s) {p : Phase} (hg : s.got = []) (hp : PhaseFacts p s) : Inv (s.setPhase p) :=
  inv_of_phaseFacts (steady_of_got_nil hg h.reset h.widths h.sentLe) (by cases p <;> exact hp)

/-- The end of `HDR`: the traversal starts with nothing counted (R132). -/
theorem setPhase_data_keeps_inv (h : Inv s) (hp : s.phase = .hdr) : Inv (s.setPhase .data) := by
  obtain ⟨hoff, hrem, hcnt⟩ := h.fresh (.inr hp)
  refine setPhase_keeps_inv h (h.got_eq_nil (by simp [need, hp]))
    ⟨h.running (by simp [busy_iff, hp]), h.draining_eq_false (by simp [hp]) (by simp [hp]), h.srecOp (.inl hp), ?_, ?_, ?_⟩
  · omega
  · rw [hoff, hcnt]; rfl
  · simp [hoff]

/-- The exit of `DATA`: all of the buffer is counted (R133). -/
theorem setPhase_cnt_keeps_inv (h : Inv s) (hp : s.phase = .data) (h0 : s.remaining = 0) : Inv (s.setPhase .cnt) := by
  have hoff : s.offset = s.len := by have := h.split (.inl hp); omega
  have hcnt := (h.count (.inl hp)).1
  exact setPhase_keeps_inv h (h.got_eq_nil (by simp [need, hp, chunkLen, h0]))
    ⟨h.running (by simp [busy_iff, hp]), h.draining_eq_false (by simp [hp]) (by simp [hp]), h.srecOp (.inr (.inl hp)),
      hoff, h0, hoff ▸ hcnt⟩

/-- The end of `CNT` (R134). -/
theorem setPhase_term_keeps_inv (h : Inv s) (hp : s.phase = .cnt) : Inv (s.setPhase .term) := by
  obtain ⟨h0, hcnt⟩ := h.countAll (.inl hp)
  have hoff : s.offset = s.len := by have := h.split (.inr (.inl hp)); omega
  have hd := h.draining_eq_false (by simp [hp]) (by simp [hp])
  exact setPhase_keeps_inv h (h.got_eq_nil (by simp [need, hp]))
    ⟨h.running (by simp [busy_iff, hp]), by simp [Awaited, hd], h.srecOp (.inr (.inr (.inl hp))), hoff, h0, hcnt⟩

/-- The exit of `ASM`: all of the buffer is rendered and every character handed over (R162). -/
theorem setPhase_done_keeps_inv (h : Inv s) (hp : s.phase = .asm) (h0 : s.remaining = 0) (hs : s.sent = s.out.length) :
    Inv (s.setPhase .done) := by
  obtain ⟨he, -, hrx⟩ := h.running (by simp [busy_iff, hp])
  exact setPhase_keeps_inv h (h.got_eq_nil (by simp [need, hp, chunkLen, h0]))
    ⟨he, h.draining_eq_false (by simp [hp]) (by simp [hp]), hrx, hs⟩

/-- While `BUSY` the text may grow: what the sink has is still its beginning (R54, R65). -/
theorem emitStr_keeps_inv (h : Inv s) (hb : s.busy = true) (x : Text) : Inv (s.emitStr x) := by
  have hp := (busy_iff s).mp hb
  exact { h with
    errOut := fun e : s.phase = _ => by simp [e] at hp
    idleOut := fun e : s.phase = _ => by simp [e] at hp
    doneSent := fun e : s.phase = _ => by simp [e] at hp
    sentLe := h.sentLe.trans (by simp)
    rxIs := fun e => by simp [h.rxIs e, List.take_append_of_le_length h.sentLe]
    drainIn := fun hd => ⟨(h.drainIn hd).1, (h.drainIn hd).2.trans_le (by simp)⟩ }

/-- A record line is appended like any text; its scratch registers are in no invariant (R112). -/
theorem buildLine_keeps_inv (h : Inv s) (hb : s.busy = true) (k : BitVec 4) (a : Address) (p : List Byte) :
    Inv (buildLine k a p s) := by
  rw [buildLine_eq]
  exact { emitStr_keeps_inv h hb _ with }

/-- A line is not empty, so something is left to take after it. -/
theorem sent_lt_buildLine (h : Inv s) (k : BitVec 4) (a : Address) (p : List Byte) :
    (buildLine k a p s).sent < (buildLine k a p s).out.length := by
  rw [buildLine_sent]
  exact h.sentLe.trans_lt (by simp [buildLine_eq])

/-- A consumed line leaves nothing staged. -/
theorem clearGot_keeps_inv (h : Inv s) : Inv s.clearGot := { h with gotLe := Nat.zero_le _, gotIs := rfl }

/-- The wait for the sink begins with the last line in `OUT` (R63). -/
theorem drain_keeps_inv (h : Inv s) (hp : s.phase = .record ∨ s.phase = .term) (hg : s.got = [])
    (hs : s.sent < s.out.length) : Inv s.drain :=
  { h with
    gotLe := by simp [hg]
    gotIs := by simp [hg]
    drainIn := fun _ => ⟨hp, hs⟩ }

/-- `OFFSET` stays within `LEN`, so that it does not wrap (R9, R32 a). -/
theorem wrapLen_advance (h : Inv s) (hsum : s.offset + s.remaining = s.len) :
    wrapLen s.cfg (s.offset + min 16 s.remaining) = s.offset + min 16 s.remaining :=
  wrapLen_of_lt (by have := h.widths.1; omega)

theorem steady_advance (h : Inv s) (hg : s.got = []) (n : Nat) : Steady (s.advance n) :=
  have ⟨hlen, _, hrem⟩ := h.widths
  steady_of_got_nil hg h.reset ⟨hlen, wrapLen_lt _ _, (Nat.sub_le _ _).trans_lt hrem⟩ h.sentLe

/-- A data record more: the traversal registers stay in step (R133). -/
theorem advance_countRecord_keeps_inv (h : Inv s) (hp : s.phase = .data) (hr : s.remaining ≠ 0) (hg : s.got = []) :
    Inv (s.advance (min 16 s.remaining)).countRecord := by
  have hsum := h.split (.inl hp)
  obtain ⟨hcount, halign⟩ := h.count (.inl hp)
  obtain ⟨hop, hle⟩ := h.srecOp (.inr (.inl hp))
  have hwrap := wrapLen_advance h hsum
  refine inv_of_phaseFacts { steady_advance h hg _ with } ?_
  simp only [State.countRecord_phase, State.advance_phase, hp]
  refine ⟨h.running (by simp [busy_iff, hp]), h.draining_eq_false (by simp [hp]) (by simp [hp]), ⟨hop, hle⟩, ?_, ?_, ?_⟩ <;>
    simp only [State.countRecord_offset, State.countRecord_remaining, State.countRecord_len, State.countRecord_reccnt,
      State.advance_offset, State.advance_remaining, State.advance_len, State.advance_reccnt, hwrap, ceil16] at hcount ⊢
  · omega
  · rw [BitVec.toNat_add_of_lt (by simp; omega)]; simp; omega
  · omega

/-- A listing line more: the traversal registers stay in step (R162). -/
theorem advance_keeps_inv (h : Inv s) (hp : s.phase = .asm) (hr : s.remaining ≠ 0) (hg : s.got = []) :
    Inv (s.advance (min 16 s.remaining)) := by
  have hsum := h.split (.inr (.inr (.inr hp)))
  have halign := h.asmAligned hp hr
  have hwrap := wrapLen_advance h hsum
  refine inv_of_phaseFacts (steady_advance h hg _) ?_
  simp only [State.advance_phase, hp]
  refine ⟨h.running (by simp [busy_iff, hp]), h.draining_eq_false (by simp [hp]) (by simp [hp]), h.asmOp hp, ?_, ?_⟩ <;>
    simp only [State.advance_offset, State.advance_remaining, State.advance_len, hwrap] <;> omega

/-- `Reset` makes the invariant whatever the state was (R211). -/
theorem inv_resetBlock (s : State) : Inv s.resetBlock :=
  have hpos := Nat.two_pow_pos s.cfg.lenW
  inv_of_phaseFacts (steady_of_got_nil rfl rfl ⟨hpos, hpos, hpos⟩ (Nat.le_refl 0)) ⟨rfl, rfl, rfl⟩

/-- The accept step makes the invariant anew: the checks it passed give the facts of its first phase, a fault those of `ERR`
(R184, R190). -/
theorem inv_accept (hr : s.resetSeen = true) {l : Nat} (hl : l < 2 ^ s.cfg.lenW) (o : BitVec 2) (k : BitVec 4)
    (a : Address) : Inv (accept o k a l s) := by
  have hw : l < 2 ^ s.cfg.lenW ∧ 0 < 2 ^ s.cfg.lenW ∧ l < 2 ^ s.cfg.lenW := ⟨hl, Nat.two_pow_pos _, hl⟩
  rcases accept_cases o k a l s with ⟨c, -, e⟩ | ⟨hc, e⟩ <;> rw [e]
  · exact inv_of_phaseFacts (steady_of_got_nil rfl hr hw (Nat.le_refl 0)) ⟨c.code_ne_zero, rfl, rfl, rfl⟩
  · refine inv_of_phaseFacts (steady_of_got_nil rfl hr hw (Nat.le_refl 0)) ?_
    rcases check_eq_none.mp hc with ⟨rfl, hk, hlen, hf⟩ | ⟨rfl, hlen, hf⟩ | ⟨rfl, hf⟩
    · exact ⟨⟨rfl, hf, rfl⟩, nofun, ⟨rfl, rfl, rfl⟩, rfl, hk, hlen⟩
    · exact ⟨⟨rfl, hf, rfl⟩, rfl, ⟨rfl, hlen⟩, rfl, rfl, rfl⟩
    · exact ⟨⟨rfl, hf, rfl⟩, rfl, rfl, Nat.zero_add l, fun _ => rfl⟩

/-- A transfer that does not end the wait for the sink (R65, R188). -/
theorem transfer_keeps_inv (h : Inv s) (hlt : s.sent < s.out.length)
    (hn : ¬ (s.draining = true ∧ s.sent + 1 = s.out.length)) : Inv s.transfer :=
  { h with
    sentLe := hlt
    rxIs := fun e => by simp [h.rxIs e, List.take_add_one]
    doneSent := fun e => absurd (h.doneSent e) hlt.ne
    drainIn := fun hd => ⟨(h.drainIn hd).1, lt_of_le_of_ne hlt fun e => hn ⟨hd, e⟩⟩ }

/-- `Take`, with the end of the wait where it hands over the last character (R63). -/
theorem takeChar_keeps_inv {t : State} (h : Inv s) (ht : takeChar s = .next t) : Inv t := by
  rcases takeChar_cases s with ⟨hlt, e⟩ | ⟨-, e⟩ <;> rw [e] at ht <;> cases ht
  · rcases finishIfDrained_cases s.transfer with ⟨hd, hs, e⟩ | ⟨hn, e⟩ <;> rw [e]
    · have hp := (h.drainIn hd).1
      have hne : s.phase ≠ .idle := by intro e; simp [e] at hp
      have hb : s.busy = true := by rw [busy_iff]; tauto
      have hg : s.got = [] := h.got_eq_nil (by rcases hp with e | e <;> simp_all [need])
      refine inv_of_phaseFacts (steady_of_got_nil hg h.reset h.widths hlt) ⟨(h.running hb).1, rfl, ?_, hs⟩
      simp [h.rxIs hne, List.take_add_one]
    · exact transfer_keeps_inv h hlt hn
  · exact h

/-- The byte at the requested offset continues the staged bytes (R52, R53). -/
theorem stage_keeps_inv (h : Inv s) (hr : inRe s = true) : Inv (s.stage (Memory.read s.input (inOffset s))) := by
  have hlt : s.got.length < need s := by simpa [inRe] using hr
  have hgot : s.got ++ [Memory.read s.input (inOffset s)] = inSlice s (lineBase s) (s.got.length + 1) := by
    rw [inSlice_succ, ← h.gotIs, inOffset]
  exact { h with
    gotLe := by rw [State.stage_got, hgot, inSlice_length]; exact hlt
    gotIs := by rw [State.stage_got, hgot, inSlice_length]; rfl }

theorem supplyByte_keeps_inv {t : State} (h : Inv s) (ht : supplyByte s = .next t) : Inv t := by
  rcases supplyByte_cases s with ⟨hr, -, e⟩ | ⟨-, -, e⟩ | ⟨-, e⟩ <;> rw [e] at ht <;> cases ht
  · exact stage_keeps_inv h hr
  · exact h

/-- The host changes `IN` only where nothing of it is staged (R181 f). -/
theorem input_keeps_inv (h : Inv s) (hb : s.busy = false) (m : Memory) : Inv { s with input := m } := by
  have hg : s.got = [] := h.got_eq_nil (by rcases (not_busy_iff s).mp hb with e | e | e <;> simp [need, e])
  exact { h with gotIs := by simp [hg] }

theorem blockStep_keeps_inv {t : State} (h : Inv s) (ht : blockStep s = .next t) : Inv t := by
  rcases blockStep_cases ht with rfl | ⟨hp, hd, hr, -, rfl⟩ | ⟨hp, rfl⟩ | ⟨hp, h0, rfl⟩ | ⟨hp, h0, hr, -, rfl⟩ | ⟨hp, rfl⟩ |
    ⟨hp, hd, rfl⟩ | ⟨hp, h0, hs, rfl⟩ | ⟨hp, h0, hr, rfl⟩
  case inl => exact h
  all_goals
    have hb : s.busy = true := by simp [busy_iff, hp]
  · exact drain_keeps_inv (clearGot_keeps_inv (buildLine_keeps_inv h hb _ _ _)) (.inl (by simpa)) rfl
      (sent_lt_buildLine h _ _ _)
  · exact setPhase_data_keeps_inv (buildLine_keeps_inv h hb _ _ _) (by simpa)
  · exact setPhase_cnt_keeps_inv h hp h0
  · have hu := clearGot_keeps_inv (buildLine_keeps_inv h hb 1#4 (BitVec.ofNat 16 s.offset) s.got)
    simpa [chunkLen] using advance_countRecord_keeps_inv hu (by simpa) (by simpa) rfl
  · exact setPhase_term_keeps_inv (buildLine_keeps_inv h hb _ _ _) (by simpa)
  · have hg : s.got = [] := h.got_eq_nil (by simp [need, hp])
    exact drain_keeps_inv (buildLine_keeps_inv h hb _ _ _) (.inr (by simpa)) (by simpa) (sent_lt_buildLine h _ _ _)
  · exact setPhase_done_keeps_inv h hp h0 hs
  · exact advance_keeps_inv (clearGot_keeps_inv (emitStr_keeps_inv h hb _)) hp h0 rfl

theorem perform_keeps_inv {m : Move} {t : State} (h : Inv s) (ht : perform m s = .next t) : Inv t := by
  rcases perform_cases ht with ⟨-, -, e⟩ | ⟨c, -, -, -, rfl⟩ | ⟨c, -, hr, hl, -, rfl⟩ | ⟨p, -, rfl⟩ | ⟨-, -, e⟩ | ⟨-, -, e⟩ |
    ⟨-, -, rfl⟩ | ⟨a, b, -, -, hb, -, rfl⟩
  · exact blockStep_keeps_inv h e
  · exact h
  · exact inv_accept hr hl _ _ _
  · exact inv_resetBlock s
  · exact takeChar_keeps_inv h e
  · exact supplyByte_keeps_inv h e
  · exact h
  · exact input_keeps_inv h hb _

theorem step_keeps_inv {t : State} (h : Inv s) (ht : step s = .next t) : Inv t := by
  obtain ⟨m, r, e, -⟩ := step_eq_perform s
  exact perform_keeps_inv (popMove_keeps_inv h r) (e ▸ ht)

end

/-! ## What writes the command registers -/

section
variable {s t : State}

/-- The command registers and `ERRCODE` are those of another state (R21, R24). -/
def SameCommand (s t : State) : Prop :=
  t.op = s.op ∧ t.kind = s.kind ∧ t.addr = s.addr ∧ t.len = s.len ∧ t.errcode = s.errcode

/-- No block step writes the command registers. -/
theorem blockStep_sameCommand (h : blockStep s = .next t) : SameCommand s t := by
  rcases blockStep_cases h with rfl | ⟨-, -, -, -, rfl⟩ | ⟨-, rfl⟩ | ⟨-, -, rfl⟩ | ⟨-, -, -, -, rfl⟩ | ⟨-, rfl⟩ |
    ⟨-, -, rfl⟩ | ⟨-, -, -, rfl⟩ | ⟨-, -, -, rfl⟩ <;> simp [SameCommand]

theorem takeChar_sameCommand (h : takeChar s = .next t) : SameCommand s t := by
  rcases takeChar_cases s with ⟨-, e⟩ | ⟨-, e⟩ <;> rw [e] at h <;> cases h <;> simp [SameCommand]

theorem supplyByte_sameCommand (h : supplyByte s = .next t) : SameCommand s t := by
  rcases supplyByte_cases s with ⟨-, -, e⟩ | ⟨-, -, e⟩ | ⟨-, e⟩ <;> rw [e] at h <;> cases h <;> simp [SameCommand]

/-- An accepted command's operands are latched, whether it takes a fault or not (R184). -/
theorem accept_operands (o : BitVec 2) (k : BitVec 4) (a : Address) (l : Nat) (s : State) :
    (accept o k a l s).op = o ∧ (accept o k a l s).kind = k ∧ (accept o k a l s).addr = a ∧
      (accept o k a l s).len = l := by
  rcases accept_cases o k a l s with ⟨c, -, e⟩ | ⟨-, e⟩ <;> rw [e] <;> exact ⟨rfl, rfl, rfl, rfl⟩

/-- A move writes the command registers only where it is a `Reset` or a `Start` outside `BUSY`. -/
theorem perform_command {m : Move} (h : perform m s = .next t) :
    SameCommand s t ∨ (∃ p, m = .rst p) ∨
    (∃ c, m = .start c ∧ s.busy = false ∧ t.op = c.op ∧ t.kind = c.kind ∧ t.addr = c.addr ∧ t.len = c.len) := by
  rcases perform_cases h with ⟨-, -, e⟩ | ⟨c, -, -, -, rfl⟩ | ⟨c, rfl, -, -, hb, rfl⟩ | ⟨p, rfl, -⟩ | ⟨-, -, e⟩ |
    ⟨-, -, e⟩ | ⟨-, -, rfl⟩ | ⟨a, b, -, -, -, -, rfl⟩
  · exact .inl (blockStep_sameCommand e)
  · exact .inl ⟨rfl, rfl, rfl, rfl, rfl⟩
  · obtain ⟨ho, hk, ha, hl⟩ := decodeCommand_fields c
    rw [ho, hk, ha, hl]
    exact .inr (.inr ⟨c, rfl, hb, accept_operands _ _ _ _ _⟩)
  · exact .inr (.inl ⟨p, rfl⟩)
  · exact .inl (takeChar_sameCommand e)
  · exact .inl (supplyByte_sameCommand e)
  · exact .inl ⟨rfl, rfl, rfl, rfl, rfl⟩
  · exact .inl ⟨rfl, rfl, rfl, rfl, rfl⟩

end

end Sys2Proof.Machine

/-! ## The statements about the state -/

namespace Sys2Proof

open Machine

/-- Settles O46, by the move the step makes: each operation a move is made of keeps `Inv`. -/
theorem everyStepKeepsTheInvariants : Obligations.EveryStepKeepsTheInvariants :=
  fun _ _ h ht => step_keeps_inv h ht

/-- Settles O51, by the move the step makes. -/
theorem commandRegistersAreWrittenAtAccept : Obligations.CommandRegistersAreWrittenAtAccept := by
  intro s t h
  obtain ⟨m, r, e, hm⟩ := step_eq_perform s
  rcases perform_command (e ▸ h) with hsame | ⟨p, rfl⟩ | ⟨c, rfl, hb, hregs⟩
  · exact .inl hsame
  · exact .inr (.inl ⟨p, r, by simpa using hm⟩)
  · exact .inr (.inr ⟨c, r, by simpa using hm, hb, hregs⟩)

/-- Settles O7. -/
theorem stateAfterReset : Obligations.StateAfterReset :=
  ⟨rfl, rfl, rfl, rfl, rfl, rfl, rfl, rfl, rfl, rfl, rfl, rfl, rfl, rfl, rfl, rfl, rfl⟩

/-- Settles O8: the block's registers are those of `State.resetBlock`, and in `IDLE` no block step is enabled. -/
theorem resetFromAnyState : Obligations.ResetFromAnyState :=
  fun s _ => ⟨s.resetBlock, rfl, rfl, rfl, rfl, rfl, rfl, rfl, rfl, rfl, rfl, rfl, rfl, rfl, rfl, rfl, rfl, rfl, rfl,
    rfl, rfl, rfl, rfl, fun _ => rfl, rfl, rfl, rfl⟩

/-- Settles O11, by the phase. -/
theorem statusIsTheViewOfThePhase : Obligations.StatusIsTheViewOfThePhase := by
  intro s
  obtain ⟨hidle, hdone, herr⟩ := status_view s
  obtain ⟨hbd, hbe, hde⟩ := pins_exclusive s
  exact ⟨hidle, hdone, herr, (busy_iff_status s).symm.trans (busy_iff s),
    busy_iff_status s, doneFlag_iff_status s, errFlag_iff_status s, rfl, hbd, hbe, hde, pins_low_iff s⟩

/-- Settles O45: the state after reset is what a `Reset` makes of it. -/
theorem invariantsHoldAtReset : Obligations.InvariantsHoldAtReset :=
  ⟨inv_resetBlock State.reset, rfl, Memory.wf_reset⟩

end Sys2Proof

/-! The memories: the input buffer and its read port, the alphabet of a record line, and what `OUT` holds when an
operation ends (`20_memory.md`). -/

namespace Sys2Proof.Machine

/-! ## The lengths of the texts -/

/-- A record line has `11 + 2N` characters (R81). -/
@[simp] theorem recordLine_length (k : BitVec 4) (a : Address) (p : List Byte) :
    (recordLine k a p).length = 11 + 2 * p.length := by
  simp [recordLine]
  omega

/-- The first `n` data records: eleven characters each, and two for every byte they render (R143). -/
theorem dataLines_length (b : List Byte) (n : Nat) :
    (dataLines b n).length = 11 * n + 2 * min b.length (16 * n) := by
  induction n with
  | zero => simp
  | succ n ih =>
    simp only [dataLines_succ, List.length_append, ih, recordLine_length, chunk_length]
    omega

/-- The chunks of a buffer cover it (R137). -/
theorem le_ceil16 (n : Nat) : n ≤ 16 * ceil16 n := by
  unfold ceil16
  omega

/-- The text of `SREC` has the length its capacity check uses (R143, R194). -/
theorem srecText_length (cfg : Config) (b : List Byte) : (srecText cfg b).length = srecLength b.length := by
  have hcover := le_ceil16 b.length
  simp only [srecText, headerLine, List.length_append, recordLine_length, dataLines_length, HdrTag.bytes_length,
    List.length_nil, srecLength]
  omega

/-- Three characters a token, and two between tokens (R82). -/
theorem asmTokens_length {g : List Byte} (hg : g ≠ []) : (asmTokens g).length + 2 = 5 * g.length := by
  induction g with
  | nil => exact absurd rfl hg
  | cons b g ih =>
    cases g with
    | nil => rfl
    | cons c g =>
      have htail := ih (List.cons_ne_nil c g)
      simp only [asmTokens_cons_cons, List.length_append, List.length_cons, List.length_nil, hex2_length] at htail ⊢
      omega

/-- The first `n` lines of a listing, each with a byte to render: `ASM_PREFIX` in each, and five characters a byte less one
a line (R164). -/
theorem asmLines_length (pre : Text) {b : List Byte} {n : Nat} (hn : n ≤ ceil16 b.length) :
    (asmLines pre b n).length + n = n * pre.length + 5 * min b.length (16 * n) := by
  induction n with
  | zero => simp
  | succ n ih =>
    have hrest : 16 * n < b.length := by unfold ceil16 at hn; omega
    have hline := asmTokens_length (g := chunk b n) (List.ne_nil_of_length_pos (by rw [chunk_length]; omega))
    have hlines := ih (by omega)
    simp only [asmLines_succ, asmLine, List.length_append, List.length_cons, List.length_nil, Nat.add_mul,
      chunk_length] at hline ⊢
    omega

/-- The text of `ASM` has the length its capacity check uses (R161, R194). -/
theorem asmText_length (cfg : Config) (b : List Byte) : (asmText cfg b).length = asmLength cfg b.length := by
  have hlines := asmLines_length cfg.asmPrefix (le_refl (ceil16 b.length))
  have hcover := le_ceil16 b.length
  unfold asmText asmLength
  omega

/-! ## The alphabet of a record line -/

/-- The characters of a record line before its newline (R57, R113). -/
def RecordChar (c : Character) : Prop :=
  c = 0x53#8 ∨ (0x30 ≤ c.toNat ∧ c.toNat ≤ 0x39) ∨ (0x41 ≤ c.toNat ∧ c.toNat ≤ 0x46)

/-- Every digit is one of them (R77). -/
theorem recordChar_hexdig : ∀ n : BitVec 4, RecordChar (hexdig n) := by
  unfold RecordChar
  decide

/-- Both digits of a byte are (R78). -/
theorem recordChar_of_mem_hex2 {b : Byte} {c : Character} (h : c ∈ hex2 b) : RecordChar c := by
  simp only [hex2, List.mem_cons, List.not_mem_nil, or_false] at h
  rcases h with rfl | rfl <;> exact recordChar_hexdig _

/-- A record line is such characters and a newline. -/
theorem recordLine_alphabet (k : BitVec 4) (a : Address) (p : List Byte) :
    ∃ body, recordLine k a p = body ++ [chLF] ∧ ∀ c ∈ body, RecordChar c := by
  refine ⟨_, rfl, fun c hc => ?_⟩
  simp only [hex4, List.mem_append, List.mem_cons, List.not_mem_nil, or_false, List.mem_flatMap] at hc
  rcases hc with ((((rfl | rfl) | hcount) | haddrHi | haddrLo) | ⟨b, -, hbyte⟩) | hsum
  · exact .inl rfl
  · exact recordChar_hexdig k
  · exact recordChar_of_mem_hex2 hcount
  · exact recordChar_of_mem_hex2 haddrHi
  · exact recordChar_of_mem_hex2 haddrLo
  · exact recordChar_of_mem_hex2 hbyte
  · exact recordChar_of_mem_hex2 hsum

/-! ## The read port -/

section
variable {s : State}

/-- The line in progress renders bytes below `LEN` only (R52). -/
theorem Inv.lineBase_add_need_le (h : Inv s) : lineBase s + need s ≤ s.len := by
  cases hp : s.phase <;> simp only [lineBase, need, chunkLen, hp]
  case record => split <;> omega
  case data | asm => have := h.split (by simp [hp]); omega
  all_goals omega

/-- A requested byte is one of `IN[0 .. LEN-1]` (R52). -/
theorem Inv.inOffset_lt_len (h : Inv s) (hr : inRe s = true) : inOffset s < s.len := by
  have hgot : s.got.length < need s := by simpa [inRe] using hr
  have hline := h.lineBase_add_need_le
  unfold inOffset
  omega

/-- The port shows a requested offset unwrapped (R185). -/
theorem Inv.inAddr_eq (h : Inv s) (hr : inRe s = true) : (outPorts s).inAddr = inOffset s := by
  obtain ⟨hlen, -, -⟩ := h.widths
  have hw : inOffset s < 2 ^ s.cfg.lenW := (h.inOffset_lt_len hr).trans hlen
  simp [outPorts, hr, wrapLen_of_lt hw]

/-- `Supply` stages the requested byte (R188). -/
theorem Inv.supplyByte_of_inRe (h : Inv s) (hr : inRe s = true) :
    supplyByte s = .next (s.stage (Memory.read s.input (inOffset s))) := by
  rcases supplyByte_cases s with ⟨-, -, e⟩ | ⟨-, hge, -⟩ | ⟨hn, -⟩
  · exact e
  · exact absurd (h.inOffset_lt_len hr) (Nat.not_lt.mpr hge)
  · simp [hr] at hn

/-- `Supply` changes nothing where no byte is requested (R188). -/
theorem supplyByte_of_not_inRe (hr : inRe s = false) : supplyByte s = .next s := by
  simp [supplyByte, hr]

end

/-! ## What changes `IN` -/

section
variable {s t : State}

/-- The parameters and `IN` are those of another state (R51, R220). -/
def SameHostData (s t : State) : Prop := t.cfg = s.cfg ∧ t.input = s.input

theorem blockStep_sameHostData (h : blockStep s = .next t) : SameHostData s t := by
  rcases blockStep_cases h with rfl | ⟨-, -, -, -, rfl⟩ | ⟨-, rfl⟩ | ⟨-, -, rfl⟩ | ⟨-, -, -, -, rfl⟩ | ⟨-, rfl⟩ |
    ⟨-, -, rfl⟩ | ⟨-, -, -, rfl⟩ | ⟨-, -, -, rfl⟩ <;> simp [SameHostData]

theorem takeChar_sameHostData (h : takeChar s = .next t) : SameHostData s t := by
  rcases takeChar_cases s with ⟨-, e⟩ | ⟨-, e⟩ <;> rw [e] at h <;> cases h <;> simp [SameHostData]

theorem supplyByte_sameHostData (h : supplyByte s = .next t) : SameHostData s t := by
  rcases supplyByte_cases s with ⟨-, -, e⟩ | ⟨-, -, e⟩ | ⟨-, e⟩ <;> rw [e] at h <;> cases h <;> simp [SameHostData]

theorem accept_sameHostData (o : BitVec 2) (k : BitVec 4) (a : Address) (l : Nat) (s : State) :
    SameHostData s (accept o k a l s) := by
  rcases accept_cases o k a l s with ⟨c, -, e⟩ | ⟨-, e⟩ <;> rw [e] <;> exact ⟨rfl, rfl⟩

/-- No move but the host's write outside `BUSY` changes the parameters or `IN`, and that move writes one byte of `IN`. -/
theorem perform_hostData {m : Move} (h : perform m s = .next t) :
    SameHostData s t ∨
    (∃ a b, m = .setInput a b ∧ s.busy = false ∧ a < 2 ^ s.cfg.lenW ∧
      t = { s with input := Memory.write s.input a b }) := by
  rcases perform_cases h with ⟨-, -, e⟩ | ⟨c, -, -, -, rfl⟩ | ⟨c, -, -, -, -, rfl⟩ | ⟨p, -, rfl⟩ | ⟨-, -, e⟩ |
    ⟨-, -, e⟩ | ⟨-, -, rfl⟩ | ⟨a, b, rfl, -, hb, ha, rfl⟩
  · exact .inl (blockStep_sameHostData e)
  · exact .inl ⟨rfl, rfl⟩
  · exact .inl (accept_sameHostData _ _ _ _ _)
  · exact .inl ⟨rfl, rfl⟩
  · exact .inl (takeChar_sameHostData e)
  · exact .inl (supplyByte_sameHostData e)
  · exact .inl ⟨rfl, rfl⟩
  · exact .inr ⟨a, b, rfl, hb, ha, rfl⟩

/-- While `BUSY` no move changes `IN` (R66). -/
theorem perform_sameHostData {m : Move} (hb : s.busy = true) (h : perform m s = .next t) : SameHostData s t := by
  rcases perform_hostData h with hsame | ⟨a, b, -, hn, -⟩
  · exact hsame
  · simp [hb] at hn

end

/-! ## What is appended to `OUT` -/

section
variable {s t : State}

/-- `OUT` is that of another state with nothing, or a text that ends in a newline, appended (R54, R55). -/
def AppendsLine (s t : State) : Prop := ∃ line, t.out = s.out ++ line ∧ (line = [] ∨ line.getLast? = some chLF)

theorem appendsLine_of_out_eq (h : t.out = s.out) : AppendsLine s t := ⟨[], by simp [h], .inl rfl⟩

/-- The datapath's line ends in a newline, whatever its payload is (R112). -/
theorem appendsLine_buildLine (k : BitVec 4) (a : Address) (p : List Byte) (h : t.out = (buildLine k a p s).out) :
    AppendsLine s t := by
  rw [buildLine_eq] at h
  exact ⟨_, h, .inr (by simp only [← List.append_assoc, List.getLast?_concat])⟩

theorem blockStep_appendsLine (h : blockStep s = .next t) : AppendsLine s t := by
  rcases blockStep_cases h with rfl | ⟨-, -, -, -, rfl⟩ | ⟨-, rfl⟩ | ⟨-, -, rfl⟩ | ⟨-, -, -, -, rfl⟩ | ⟨-, rfl⟩ |
    ⟨-, -, rfl⟩ | ⟨-, -, -, rfl⟩ | ⟨-, -, -, rfl⟩
  · exact appendsLine_of_out_eq rfl
  · exact appendsLine_buildLine s.kind s.addr s.got rfl
  · exact appendsLine_buildLine 0#4 0x0000#16 s.cfg.hdrTag.bytes rfl
  · exact appendsLine_of_out_eq rfl
  · exact appendsLine_buildLine 1#4 (BitVec.ofNat 16 s.offset) s.got rfl
  · exact appendsLine_buildLine 5#4 s.reccnt [] rfl
  · exact appendsLine_buildLine 9#4 0x0000#16 [] rfl
  · exact appendsLine_of_out_eq rfl
  · exact ⟨asmLine s.cfg.asmPrefix s.got, rfl, .inr (by simp [asmLine])⟩

theorem takeChar_out (h : takeChar s = .next t) : t.out = s.out := by
  rcases takeChar_cases s with ⟨-, e⟩ | ⟨-, e⟩ <;> rw [e] at h <;> cases h <;> simp

theorem supplyByte_out (h : supplyByte s = .next t) : t.out = s.out := by
  rcases supplyByte_cases s with ⟨-, -, e⟩ | ⟨-, -, e⟩ | ⟨-, e⟩ <;> rw [e] at h <;> cases h <;> rfl

/-- While `BUSY` only a `Reset` takes a character out of `OUT`. -/
theorem perform_appendsLine {m : Move} (hb : s.busy = true) (hm : ∀ p, m ≠ .rst p) (h : perform m s = .next t) :
    AppendsLine s t := by
  rcases perform_cases h with ⟨-, -, e⟩ | ⟨c, -, -, -, rfl⟩ | ⟨c, -, -, -, hn, -⟩ | ⟨p, e, -⟩ | ⟨-, -, e⟩ |
    ⟨-, -, e⟩ | ⟨-, -, rfl⟩ | ⟨a, b, -, -, hn, -, -⟩
  · exact blockStep_appendsLine e
  · exact appendsLine_of_out_eq rfl
  · simp [hb] at hn
  · exact absurd e (hm p)
  · exact appendsLine_of_out_eq (takeChar_out e)
  · exact appendsLine_of_out_eq (supplyByte_out e)
  · exact appendsLine_of_out_eq rfl
  · simp [hb] at hn

end

/-! ## What enters `DONE` -/

section
variable {s t : State}

theorem phase_ne_done_of_busy (hb : s.busy = true) : s.phase ≠ .done := by
  intro e
  simp [busy_iff, e] at hb

/-- The operation's last line stands in `OUT` where the block waits for the sink, or where `ASM` has nothing left (R188). -/
theorem lastLineOut_iff (s : State) :
    lastLineOut s = true ↔ s.draining = true ∨ (s.phase = .asm ∧ s.remaining = 0) := by
  simp [lastLineOut]

/-- The block's own step enters `DONE` by the exit of `ASM` only (R162). -/
theorem blockStep_enters_done (hb : s.busy = true) (h : blockStep s = .next t) (hd : t.phase = .done) :
    lastLineOut s = true ∧ t.out = s.out := by
  have hne := phase_ne_done_of_busy hb
  rcases blockStep_cases h with rfl | ⟨-, -, -, -, rfl⟩ | ⟨-, rfl⟩ | ⟨-, -, rfl⟩ | ⟨-, -, -, -, rfl⟩ | ⟨-, rfl⟩ |
    ⟨-, -, rfl⟩ | ⟨hp, h0, -, rfl⟩ | ⟨-, -, -, rfl⟩
  pick_goal 8 -- the exit of `ASM`
  · exact ⟨(lastLineOut_iff s).mpr (.inr ⟨hp, h0⟩), rfl⟩
  all_goals simp [hne] at hd

/-- `Take` enters `DONE` by the end of the wait for the sink only (R63, log 7). -/
theorem takeChar_enters_done (hb : s.busy = true) (h : takeChar s = .next t) (hd : t.phase = .done) :
    lastLineOut s = true := by
  have hne := phase_ne_done_of_busy hb
  rcases takeChar_cases s with ⟨-, e⟩ | ⟨-, e⟩ <;> rw [e] at h <;> cases h
  · rcases finishIfDrained_cases s.transfer with ⟨hdrain, -, -⟩ | ⟨-, e⟩
    · exact (lastLineOut_iff s).mpr (.inl hdrain)
    · rw [e] at hd
      exact absurd hd hne
  · exact absurd hd hne

theorem supplyByte_phase (h : supplyByte s = .next t) : t.phase = s.phase := by
  rcases supplyByte_cases s with ⟨-, -, e⟩ | ⟨-, -, e⟩ | ⟨-, e⟩ <;> rw [e] at h <;> cases h <;> rfl

/-- A move enters `DONE` only with the last line in `OUT`, and appends nothing. -/
theorem perform_enters_done {m : Move} (hb : s.busy = true) (h : perform m s = .next t) (hd : t.phase = .done) :
    lastLineOut s = true ∧ t.out = s.out := by
  have hne := phase_ne_done_of_busy hb
  rcases perform_cases h with ⟨-, -, e⟩ | ⟨c, -, -, -, rfl⟩ | ⟨c, -, -, -, hn, -⟩ | ⟨p, -, rfl⟩ | ⟨-, -, e⟩ |
    ⟨-, -, e⟩ | ⟨-, -, rfl⟩ | ⟨a, b, -, -, hn, -, -⟩
  · exact blockStep_enters_done hb e hd
  · exact absurd hd hne
  · simp [hb] at hn
  · cases hd
  · exact ⟨takeChar_enters_done hb e hd, takeChar_out e⟩
  · exact absurd (supplyByte_phase e ▸ hd) hne
  · exact absurd hd hne
  · simp [hb] at hn

/-- Once the last line is in `OUT`, `OUT` is the operation's whole text (R110, R136, R164). -/
theorem out_eq_finalText (h : Inv s) (hx : TextInv s) (hl : lastLineOut s = true) : s.out = finalText s := by
  unfold TextInv at hx
  rcases (lastLineOut_iff s).mp hl with hdrain | ⟨hp, h0⟩
  · rcases (h.drainIn hdrain).1 with hp | hp
    · obtain ⟨hop, -, -⟩ := h.recordOp hp
      simpa [finalText, hop, hp, hdrain] using hx
    · obtain ⟨hop, -⟩ := h.srecOp (.inr (.inr (.inr hp)))
      simpa [finalText, srecText, hop, hp, hdrain] using hx
  · have hoff : s.offset = s.len := by have := h.split (.inr (.inr (.inr hp))); omega
    simpa [finalText, asmText, h.asmOp hp, hp, hoff] using hx

/-- The whole text has the length the accept step checked (R191, R194). -/
theorem finalText_length (s : State) : (finalText s).length = opLength s := by
  unfold finalText opLength
  split
  · simp [recordLength]
  · split
    · simp [srecText_length]
    · simp [asmText_length]

/-- In `DONE` the sink holds all of `OUT`, and there is no error code (R63, R65). -/
theorem Inv.sink_of_done (h : Inv s) (hp : s.phase = .done) :
    s.rx = s.out ∧ s.sent = s.out.length ∧ s.errcode = 0 := by
  have hsent := h.doneSent hp
  have hrx := h.rxIs (by simp [hp])
  refine ⟨by rw [hrx, hsent, List.take_length], hsent, ?_⟩
  simpa [hp] using h.errIff

end

end Sys2Proof.Machine

/-! ## The statements about the memories -/

namespace Sys2Proof

open Machine

/-- Settles O48: the step enters `DONE` with the last line in `OUT` and appends nothing, the text invariant says what `OUT`
then is, and the invariants of `DONE` give it to the sink. -/
theorem doneMeansTheWholeText : Obligations.DoneMeansTheWholeText := by
  intro s t h hx hb ht hd
  obtain ⟨hrx, hsent, hcode⟩ := (step_keeps_inv h ht).sink_of_done hd
  obtain ⟨m, r, e, -⟩ := step_eq_perform s
  have hm : perform m (s.popMove r) = .next t := e ▸ ht
  obtain ⟨hlast, hout⟩ : lastLineOut s = true ∧ t.out = s.out := perform_enters_done (s := s.popMove r) hb hm hd
  obtain ⟨-, hin⟩ := perform_sameHostData (s := s.popMove r) hb hm
  have htext : t.out = finalText s := hout.trans (out_eq_finalText h hx hlast)
  rw [hrx, hsent, htext]
  exact ⟨rfl, rfl, rfl, hcode, hin, finalText_length s⟩

/-- Settles O27: every field of the line is made of digits. -/
theorem recordLineAlphabet : Obligations.RecordLineAlphabet := recordLine_alphabet

/-- Settles O43: the line in progress lies below `LEN`, so the request is a read of `IN` that the port shows unwrapped. -/
theorem supplyReadsTheNextByte : Obligations.SupplyReadsTheNextByte := by
  intro s h
  refine ⟨fun hr => ⟨h.inOffset_lt_len hr, h.inAddr_eq hr, ?_⟩, fun hr => ?_⟩
  · exact (afterReset_of_seen h.reset _).trans (h.supplyByte_of_inRe hr)
  · exact (afterReset_of_seen h.reset _).trans (supplyByte_of_not_inRe hr)

/-- Settles O49: `IN` is as it was, or one byte of it is written at an offset of `LEN_W` bits. -/
theorem everyStepKeepsTheInputCanonical : Obligations.EveryStepKeepsTheInputCanonical := by
  intro s t hwf h
  obtain ⟨m, r, e, -⟩ := step_eq_perform s
  rcases perform_hostData (e ▸ h) with ⟨hcfg, hin⟩ | ⟨a, b, -, -, ha, rfl⟩
  · rw [hcfg, hin]
    exact hwf
  · exact Memory.wf_write hwf ha b

/-- Settles O52, by the move the step makes. -/
theorem inputAndParametersAreTheHosts : Obligations.InputAndParametersAreTheHosts := by
  intro s t h
  obtain ⟨m, r, e, hm⟩ := step_eq_perform s
  rcases perform_hostData (e ▸ h) with ⟨hcfg, hin⟩ | ⟨a, b, rfl, hb, -, rfl⟩
  · exact ⟨hcfg, .inl hin⟩
  · exact ⟨rfl, .inr ⟨hb, a, b, r, by simpa using hm⟩⟩

/-- Settles O53, by the move the step makes: a silent host's is the block's own, never a `Reset`. -/
theorem outputIsAppendOnly : Obligations.OutputIsAppendOnly := by
  intro s t hb h hn
  obtain ⟨m, r, e, hm⟩ := step_eq_perform s
  have hrst : ∀ p, m ≠ .rst p := by
    rintro p rfl
    exact hn p r (by simpa using hm)
  exact perform_appendsLine (s := s.popMove r) hb hrst (e ▸ h)

end Sys2Proof

/-! The text so far: what every step appends to `OUT` (`30_encoding.md` R83, R136, R164). -/

namespace Sys2Proof.Machine

/-! ## The datapath's line is the closed form -/

/-- The sum of the bytes in eight bits is the low byte of their sum (R9). -/
theorem sum_eq_ofNat_byteSum (p : List Byte) : p.sum = BitVec.ofNat 8 (byteSum p) := by
  induction p with
  | nil => rfl
  | cons b p ih => simp [byteSum, ih, BitVec.ofNat_add]

/-- `SUM` at the end of a line: the low byte of the record's sum (R101, R112). -/
theorem lineSum_eq_recordSum (a : Address) (p : List Byte) :
    BitVec.ofNat 8 (p.length + 3) + addrHi a + addrLo a + p.sum = recordSum a p := by
  simp only [recordSum, sum_eq_ofNat_byteSum, BitVec.ofNat_add, BitVec.ofNat_toNat, BitVec.setWidth_eq]

/-- The checksum byte is what is left of 0xFF (R101, R112). -/
theorem ofNat_cksum (a : Address) (p : List Byte) :
    BitVec.ofNat 8 (cksum (p.length + 3) (addrHi a) (addrLo a) p) = 0xFF#8 - recordSum a p := by
  apply BitVec.eq_of_toNat_eq
  simp only [cksum, recordSum, BitVec.toNat_sub, BitVec.toNat_ofNat]
  omega

/-- The datapath appends `Line(k, a, P)`, whatever the length of the payload is (R112). -/
theorem buildLine_out (k : BitVec 4) (a : Address) (p : List Byte) (s : State) :
    (buildLine k a p s).out = s.out ++ recordLine k a p := by
  simp only [buildLine_eq, lineSum_eq_recordSum, recordLine, ofNat_cksum, hex4, List.append_assoc]

/-! ## The line in progress -/

section
variable {s : State}

/-- Once no byte is requested, the staged bytes are all the line renders (R53, R188). -/
theorem Inv.got_of_not_inRe (h : Inv s) (hr : inRe s = false) : s.got = inSlice s (lineBase s) (need s) := by
  have hlt : ¬ s.got.length < need s := by simpa [inRe] using hr
  have hlen : s.got.length = need s := by have := h.gotLe; omega
  rw [← hlen]
  exact h.gotIs

/-- The payload of a `REC` in progress is the whole buffer (R110). -/
theorem Inv.got_eq_buffer (h : Inv s) (hp : s.phase = .record) (hd : s.draining = false) (hr : inRe s = false) :
    s.got = buffer s := by
  rw [h.got_of_not_inRe hr]
  simp [lineBase, need, hp, hd, buffer]

/-- A chunk in progress starts at a multiple of 16 (R133, R162). -/
theorem Inv.offset_eq (h : Inv s) (hp : s.phase = .data ∨ s.phase = .asm) (h0 : s.remaining ≠ 0) :
    s.offset = 16 * ceil16 s.offset := by
  have halign : s.offset % 16 = 0 := by
    rcases hp with e | e
    · exact (h.count (.inl e)).2 h0
    · exact h.asmAligned e h0
  unfold ceil16
  omega

/-- The bytes read of a chunk in progress are the chunk `OFFSET` counts to (R136, R164). -/
theorem Inv.got_eq_chunk (h : Inv s) (hp : s.phase = .data ∨ s.phase = .asm) (h0 : s.remaining ≠ 0)
    (hr : inRe s = false) : s.got = chunk (buffer s) (ceil16 s.offset) := by
  have hline : lineBase s = s.offset ∧ need s = chunkLen s := by rcases hp with e | e <;> simp [lineBase, need, e]
  have hsum : s.offset + s.remaining = s.len := h.split (by tauto)
  have hrem : s.len - s.offset = s.remaining := by omega
  rw [h.got_of_not_inRe hr, hline.1, hline.2, chunk_buffer, ← h.offset_eq hp h0, hrem, chunkLen]

/-- A chunk more is counted by one more (R133, R162). -/
theorem Inv.ceil16_advance (h : Inv s) (hp : s.phase = .data ∨ s.phase = .asm) (h0 : s.remaining ≠ 0) :
    ceil16 (s.advance (chunkLen s)).offset = ceil16 s.offset + 1 := by
  have hoff := h.offset_eq hp h0
  rw [State.advance_offset, chunkLen, wrapLen_advance h (h.split (by tauto))]
  unfold ceil16 at hoff ⊢
  omega

end

/-! ## Every move keeps the text -/

section
variable {s t : State}

/-- Outside `BUSY` the text invariant says nothing of the buffer. -/
theorem input_keeps_text (hb : s.busy = false) (hx : TextInv s) (m : Memory) : TextInv { s with input := m } := by
  unfold TextInv at hx ⊢
  rcases (not_busy_iff s).mp hb with e | e | e <;> simp_all

/-- An accepted command starts with no text, whether it takes a fault or not (R184, R190). -/
theorem text_accept (o : BitVec 2) (k : BitVec 4) (a : Address) (l : Nat) (s : State) : TextInv (accept o k a l s) := by
  rcases accept_cases o k a l s with ⟨c, -, e⟩ | ⟨-, e⟩ <;> rw [e]
  · exact rfl
  · have hphase : firstPhase o = .record ∨ firstPhase o = .hdr ∨ firstPhase o = .asm := by
      unfold firstPhase
      split
      · exact .inl rfl
      · split
        · exact .inr (.inl rfl)
        · exact .inr (.inr rfl)
    unfold TextInv
    rcases hphase with e | e | e <;> simp [e, ceil16]

/-- A transfer leaves `OUT`, and where it ends the wait nothing is said (R63, R188). -/
theorem takeChar_keeps_text (hx : TextInv s) (h : takeChar s = .next t) : TextInv t := by
  rcases takeChar_cases s with ⟨-, e⟩ | ⟨-, e⟩ <;> rw [e] at h <;> cases h
  · rcases finishIfDrained_cases s.transfer with ⟨-, -, e⟩ | ⟨-, e⟩ <;> rw [e]
    · exact trivial
    · exact hx
  · exact hx

theorem supplyByte_keeps_text (hx : TextInv s) (h : supplyByte s = .next t) : TextInv t := by
  rcases supplyByte_cases s with ⟨-, -, e⟩ | ⟨-, -, e⟩ | ⟨-, e⟩ <;> rw [e] at h <;> cases h <;> exact hx

/-- A block step appends the line its phase names and moves on to the text with that line (R110, R132 to R135, R162). -/
theorem blockStep_keeps_text (h : Inv s) (hx : TextInv s) (ht : blockStep s = .next t) : TextInv t := by
  have h' : Inv t := blockStep_keeps_inv h ht
  obtain ⟨-, hkind, haddr, hlen, -⟩ := blockStep_sameCommand ht
  obtain ⟨hcfg, hin⟩ := blockStep_sameHostData ht
  have hbuf : buffer t = buffer s := buffer_congr hin hlen
  unfold TextInv at hx ⊢
  rw [hbuf, hcfg, hkind, haddr, hlen]
  rcases blockStep_cases ht with rfl | ⟨hp, hd, hr, -, rfl⟩ | ⟨hp, rfl⟩ | ⟨hp, h0, rfl⟩ | ⟨hp, h0, hr, -, rfl⟩ | ⟨hp, rfl⟩ |
    ⟨hp, hd, rfl⟩ | ⟨hp, h0, hs, rfl⟩ | ⟨hp, h0, hr, rfl⟩
  case inl => exact hx
  all_goals simp only [hp] at hx
  · -- `REC`: the one line, on the whole buffer
    simpa [hp, hd, buildLine_out, h.got_eq_buffer hp hd hr] using hx
  · -- `HDR`: the header, and no data record is counted yet
    obtain ⟨-, -, hcnt⟩ := h.fresh (.inr hp)
    simp [buildLine_out, headerLine, hx, hcnt]
  · -- the exit of `DATA`: every chunk is counted
    have hcnt : s.reccnt.toNat = ceil16 s.len := (h'.countAll (.inl rfl)).2
    simpa [hcnt] using hx
  · -- `DATA`: the chunk the count names, and one more counted
    have hnext : (s.reccnt + 1#16).toNat = ceil16 s.offset + 1 := by
      rw [← h.ceil16_advance (.inl hp) h0]
      simpa using (h'.count (.inl (by simpa))).1
    simp [-BitVec.toNat_add, hp, hx, hnext, (h.count (.inl hp)).1, buildLine_out, dataLines_succ,
      ← h.got_eq_chunk (.inl hp) h0 hr, ← h.offset_eq (.inl hp) h0]
  · -- `CNT`: the count record
    have hd := h.draining_eq_false (by simp [hp]) (by simp [hp])
    obtain ⟨-, hcnt⟩ := h.countAll (.inl hp)
    simp [buildLine_out, hx, hd, ← hcnt]
  · -- `TERM`: the terminator
    simp [hp, hd, hx, buildLine_out]
  · -- the exit of `ASM`
    trivial
  · -- `ASM`: the chunk `OFFSET` counts to
    have hnext : ceil16 (wrapLen s.cfg (s.offset + chunkLen s)) = ceil16 s.offset + 1 := h.ceil16_advance (.inr hp) h0
    simp [hp, hx, hnext, asmLines_succ, ← h.got_eq_chunk (.inr hp) h0 hr]

theorem perform_keeps_text {m : Move} (h : Inv s) (hx : TextInv s) (ht : perform m s = .next t) : TextInv t := by
  rcases perform_cases ht with ⟨-, -, e⟩ | ⟨c, -, -, -, rfl⟩ | ⟨c, -, -, -, -, rfl⟩ | ⟨p, -, rfl⟩ | ⟨-, -, e⟩ | ⟨-, -, e⟩ |
    ⟨-, -, rfl⟩ | ⟨a, b, -, -, hb, -, rfl⟩
  · exact blockStep_keeps_text h hx e
  · exact hx
  · exact text_accept _ _ _ _ _
  · exact rfl
  · exact takeChar_keeps_text hx e
  · exact supplyByte_keeps_text hx e
  · exact hx
  · exact input_keeps_text hb hx _

theorem step_keeps_text (h : Inv s) (hx : TextInv s) (ht : step s = .next t) : TextInv t := by
  obtain ⟨m, r, e, -⟩ := step_eq_perform s
  exact perform_keeps_text (s := s.popMove r) (popMove_keeps_inv h r) hx (e ▸ ht)

end

end Sys2Proof.Machine

namespace Sys2Proof

open Machine

/-- Settles O47, by the move the step makes: a block step appends the line its phase names, and no other move appends. -/
theorem everyStepKeepsTheText : Obligations.EveryStepKeepsTheText :=
  fun _ _ h hx ht => step_keeps_text h hx ht

end Sys2Proof

/-! The command decoder and the byte image of a command (`30_encoding.md` R70 to R75, R86; log 13). -/

namespace Sys2Proof

/-! ## What the bytes of an image are read as -/

/-- Fewer bytes than an image has. -/
theorem ofBytes_of_short {w : Nat} {bs : List Byte} (h : bs.length < imageLength w) :
    Command.ofBytes w bs = .error (.truncated bs.length) := by
  unfold imageLength at h
  match bs with
  | [] | [_] | [_, _] => rfl
  | _ :: _ :: _ :: bs =>
    have hshort : ¬ lenBytes w ≤ bs.length := by simp only [List.length_cons] at h; omega
    simp [Command.ofBytes, hshort]

/-- Enough bytes, and a bit above the six of `cmdw` in the first. -/
theorem ofBytes_of_no_word {w : Nat} {b : Byte} {bs : List Byte} (h : imageLength w ≤ bs.length + 1)
    (hb : 0x40 ≤ b.toNat) : Command.ofBytes w (b :: bs) = .error (.notACommandWord b) := by
  unfold imageLength at h
  match bs with
  | [] | [_] => simp only [List.length_cons, List.length_nil] at h; omega
  | _ :: _ :: bs =>
    have hlen : lenBytes w ≤ bs.length := by simp only [List.length_cons] at h; omega
    simp [Command.ofBytes, hlen, Nat.not_lt.mpr hb]

section
variable {w : Nat} {b a0 a1 : Byte} {bs : List Byte}

/-- Enough bytes and a word in the first, and a `LEN` that `LEN_W` bits do not hold. -/
theorem ofBytes_of_wide (hlen : lenBytes w ≤ bs.length) (hb : b.toNat < 0x40)
    (hw : 2 ^ w ≤ natOfBytes (bs.take (lenBytes w))) :
    Command.ofBytes w (b :: a0 :: a1 :: bs) = .error (.operandTooWide (natOfBytes (bs.take (lenBytes w)))) := by
  simp [Command.ofBytes, lenFits, hlen, hb, Nat.not_lt.mpr hw]

/-- Enough bytes, a word in the first, and a `LEN` the port carries. -/
theorem ofBytes_of_image (hlen : lenBytes w ≤ bs.length) (hb : b.toNat < 0x40)
    (hw : natOfBytes (bs.take (lenBytes w)) < 2 ^ w) :
    Command.ofBytes w (b :: a0 :: a1 :: bs) =
      .ok (⟨BitVec.ofNat 6 b.toNat, BitVec.ofNat 16 (a0.toNat + 256 * a1.toNat), natOfBytes (bs.take (lenBytes w))⟩,
        bs.drop (lenBytes w)) := by
  simp [Command.ofBytes, lenFits, hlen, hb, hw]

/-- The ports' values read from an image have that image. -/
theorem toBytes_of_image (hlen : lenBytes w ≤ bs.length) (hb : b.toNat < 0x40) :
    Command.toBytes w ⟨BitVec.ofNat 6 b.toNat, BitVec.ofNat 16 (a0.toNat + 256 * a1.toNat),
      natOfBytes (bs.take (lenBytes w))⟩ = b :: a0 :: a1 :: bs.take (lenBytes w) := by
  have htake : bytesOfNat (lenBytes w) (natOfBytes (bs.take (lenBytes w))) = bs.take (lenBytes w) := by
    have h := bytesOfNat_natOfBytes (bs.take (lenBytes w))
    rwa [List.length_take_of_le hlen] at h
  have hword : BitVec.ofNat 8 (BitVec.ofNat 6 b.toNat).toNat = b := by bv_omega
  have hlow : BitVec.ofNat 8 (BitVec.ofNat 16 (a0.toNat + 256 * a1.toNat)).toNat = a0 := by bv_omega
  have hhigh : BitVec.ofNat 8 ((BitVec.ofNat 16 (a0.toNat + 256 * a1.toNat)).toNat / 256) = a1 := by bv_omega
  simp only [Command.toBytes, htake, hword, hlow, hhigh, List.cons_append, List.nil_append]

end

/-- The image of the ports' values is read back as those values. -/
theorem ofBytes_toBytes {w : Nat} {c : Command} (h : c.len < 2 ^ w) (rest : List Byte) :
    Command.ofBytes w (c.toBytes w ++ rest) = .ok (c, rest) := by
  obtain ⟨cmdw, addr, len⟩ := c
  have htake : (bytesOfNat (lenBytes w) len ++ rest).take (lenBytes w) = bytesOfNat (lenBytes w) len :=
    List.take_left' (length_bytesOfNat _ _)
  have hdrop : (bytesOfNat (lenBytes w) len ++ rest).drop (lenBytes w) = rest := List.drop_left' (length_bytesOfNat _ _)
  have hword : BitVec.ofNat 6 (BitVec.ofNat 8 cmdw.toNat).toNat = cmdw := by bv_omega
  have haddr : BitVec.ofNat 16 ((BitVec.ofNat 8 addr.toNat).toNat + 256 * (BitVec.ofNat 8 (addr.toNat / 256)).toNat)
      = addr := by bv_omega
  have himage := ofBytes_of_image (w := w) (b := BitVec.ofNat 8 cmdw.toNat) (a0 := BitVec.ofNat 8 addr.toNat)
    (a1 := BitVec.ofNat 8 (addr.toNat / 256)) (bs := bytesOfNat (lenBytes w) len ++ rest) (by simp)
    (by simp only [BitVec.toNat_ofNat]; omega) (by rwa [htake, natOfBytes_lenBytes h])
  rwa [htake, hdrop, natOfBytes_lenBytes h, hword, haddr] at himage

/-- Bytes are read as the ports' values exactly where they are the image of values the ports carry. -/
theorem ofBytes_eq_ok_iff {w : Nat} {bs rest : List Byte} {c : Command} :
    Command.ofBytes w bs = .ok (c, rest) ↔ c.len < 2 ^ w ∧ bs = c.toBytes w ++ rest := by
  refine ⟨fun h => ?_, fun ⟨hw, hbs⟩ => hbs ▸ ofBytes_toBytes hw rest⟩
  match bs with
  | [] | [_] | [_, _] => cases h
  | b :: a0 :: a1 :: bs =>
    rcases Nat.lt_or_ge bs.length (lenBytes w) with hlen | hlen
    · rw [ofBytes_of_short (by simp only [imageLength, List.length_cons]; omega)] at h
      cases h
    rcases Nat.lt_or_ge b.toNat 0x40 with hb | hb
    · rcases Nat.lt_or_ge (natOfBytes (bs.take (lenBytes w))) (2 ^ w) with hw | hw
      · rw [ofBytes_of_image hlen hb hw] at h
        cases h
        exact ⟨hw, by rw [toBytes_of_image hlen hb]; simp⟩
      · rw [ofBytes_of_wide hlen hb hw] at h
        cases h
    · rw [ofBytes_of_no_word (by simp only [imageLength, List.length_cons]; omega) hb] at h
      cases h

/-! ## The decoder -/

/-- The ports' values of a decoded command are those it was decoded from (R70). -/
theorem command_decodeCommand (c : Command) : (decodeCommand c).command = c := by
  have hsplit : ∀ v : CmdWord, v.extractLsb' 4 2 ++ v.extractLsb' 0 4 = v := by decide
  obtain ⟨hop, hkind, haddr, hlen⟩ := Machine.decodeCommand_fields c
  simp only [Instr.command, hop, hkind, haddr, hlen, Command.op, Command.kind, hsplit]

theorem decode_of_ok {w : Nat} {bs rest : List Byte} {c : Command} (h : Command.ofBytes w bs = .ok (c, rest)) :
    decode w bs = .ok (decodeCommand c, rest) := by simp [decode, h]

theorem decode_of_error {w : Nat} {bs : List Byte} {e : DecodeError} (h : Command.ofBytes w bs = .error e) :
    decode w bs = .error e := by simp [decode, h]

/-- Bytes decode to a command exactly where they are its image and the port carries its `LEN`. -/
theorem decode_eq_ok_iff {w : Nat} {bs rest : List Byte} {i : Instr} :
    decode w bs = .ok (i, rest) ↔ i.wf w = true ∧ bs = encode w i ++ rest := by
  rw [Machine.wf_eq_lenFits, Machine.lenFits_iff]
  constructor
  · intro h
    cases hc : Command.ofBytes w bs with
    | error e => rw [decode_of_error hc] at h; cases h
    | ok r =>
      obtain ⟨c, rest'⟩ := r
      rw [decode_of_ok hc] at h
      cases h
      obtain ⟨hlen, hbs⟩ := ofBytes_eq_ok_iff.mp hc
      obtain ⟨-, -, -, hl⟩ := Machine.decodeCommand_fields c
      exact ⟨hl ▸ hlen, by rw [encode, command_decodeCommand, hbs]⟩
  · rintro ⟨hlen, rfl⟩
    have hc : Command.ofBytes w (encode w i ++ rest) = .ok (i.command, rest) := ofBytes_toBytes hlen rest
    rw [decode_of_ok hc, Laws.CommandFields.decodeCommand_command]

/-! ## The opcode rows -/

/-- The operands have no part in the mnemonic (R74). -/
theorem mnemonic_decodeRecord (k : BitVec 4) (a : Address) (l : Nat) :
    (decodeRecord k a l).mnemonic = (decodeRecord k 0 0).mnemonic := by
  obtain ⟨⟨n, hn⟩⟩ := k
  interval_cases n <;> rfl

theorem mnemonic_decodeCommand (v : CmdWord) (a : Address) (l : Nat) :
    (decodeCommand ⟨v, a, l⟩).mnemonic = (decodeCommand ⟨v, 0, 0⟩).mnemonic := by
  unfold decodeCommand
  rcases Machine.op_cases (Command.op ⟨v, a, l⟩) with h | h | h | h
  all_goals
    have h' : Command.op ⟨v, 0, 0⟩ = Command.op ⟨v, a, l⟩ := rfl
    rw [h', h]
  · exact mnemonic_decodeRecord _ a l
  all_goals rfl

/-- Each of the 64 command words matches one row, the one of its mnemonic (R86). -/
theorem filter_opcodeRows (v : CmdWord) :
    (opcodeRows.filter (·.matchesWord v)).map (·.mnemonic) = [(decodeCommand ⟨v, 0, 0⟩).mnemonic] := by
  revert v
  decide

/-! ## The statements about the decoder -/

/-- Settles O1: an image is read back as the ports' values, and the decoder undoes the packing of those. -/
theorem decodeOfEncodeIsTheCommand : Obligations.DecodeOfEncodeIsTheCommand :=
  fun _ _ _ h => decode_eq_ok_iff.mpr ⟨h, rfl⟩

/-- Settles O2, by the four ways bytes are read: only an image answers a command. -/
theorem decodedImageIsTheEncoding : Obligations.DecodedImageIsTheEncoding :=
  fun _ _ _ _ h => decode_eq_ok_iff.mp h

/-- Settles O3. -/
theorem commandWordsDecodeAsWrittenOut : Obligations.CommandWordsDecodeAsWrittenOut :=
  ⟨rfl, rfl, rfl, rfl, rfl, rfl, rfl, rfl, rfl, rfl, rfl⟩

/-- Settles O4: the row is found by the word alone, the operands having no part in the mnemonic. -/
theorem everyCommandWordMatchesOneRow : Obligations.EveryCommandWordMatchesOneRow := by
  intro v a l
  obtain ⟨r, hr, hm⟩ := List.map_eq_singleton_iff.mp (filter_opcodeRows v)
  exact ⟨r, hr, by rw [mnemonic_decodeCommand, hm]⟩

/-- Settles O5, by the three ways bytes are refused. -/
theorem whatIsNoImageIsRefusedByName : Obligations.WhatIsNoImageIsRefusedByName :=
  fun _ => ⟨fun _ h => decode_of_error (ofBytes_of_short h), fun _ _ h hb => decode_of_error (ofBytes_of_no_word h hb),
    fun _ _ _ _ hlen hb hw => decode_of_error (ofBytes_of_wide hlen hb hw)⟩

end Sys2Proof

/-! The output encodings: where the fields of a record line and of a listing line stand (`30_encoding.md` R76 to R82). -/

namespace Sys2Proof.Machine

/-! ## Digits -/

/-- The character of each digit (R77). -/
theorem hexdig_toNat : ∀ n : BitVec 4, (n.toNat ≤ 9 → (hexdig n).toNat = 0x30 + n.toNat) ∧
    (10 ≤ n.toNat → (hexdig n).toNat = 0x41 + (n.toNat - 10)) := by decide

/-- The two nibbles make the byte (R78). -/
theorem byte_toNat (b : Byte) : b.toNat = 16 * (b.extractLsb' 4 4).toNat + (b.extractLsb' 0 4).toNat := by
  have := b.isLt
  simp only [BitVec.extractLsb'_toNat]
  omega

/-- The two digits determine the byte (R78). -/
theorem hex2_injective : Function.Injective hex2 := by
  intro b b' h
  simp only [hex2, List.cons.injEq, and_true] at h
  obtain ⟨hhigh, hlow⟩ := h
  apply BitVec.eq_of_toNat_eq
  rw [byte_toNat b, byte_toNat b', hexdig_injective _ _ hhigh, hexdig_injective _ _ hlow]

/-- The four digits determine the address (R79). -/
theorem hex4_injective : Function.Injective hex4 := by
  intro a a' h
  obtain ⟨hhigh, hlow⟩ := List.append_inj h rfl
  apply BitVec.eq_of_toNat_eq
  rw [addr_toNat a, addr_toNat a', hex2_injective hhigh, hex2_injective hlow]

/-! ## Fields at a position -/

/-- What stands between `n` characters and the rest. -/
theorem take_drop_of_eq {line before field after : Text} {n m : Nat} (h : line = before ++ (field ++ after))
    (hn : before.length = n) (hm : field.length = m) : (line.drop n).take m = field := by
  rw [h, List.drop_left' hn, List.take_left' hm]

/-- A list around its element at an index. -/
theorem eq_take_append_cons_drop {α : Type} {l : List α} {i : Nat} {x : α} (h : l[i]? = some x) :
    l = l.take i ++ x :: l.drop (i + 1) ∧ (l.take i).length = i := by
  obtain ⟨hi, rfl⟩ := List.getElem?_eq_some_iff.mp h
  rw [List.getElem_cons_drop, List.take_append_drop]
  exact ⟨rfl, List.length_take_of_le hi.le⟩

/-! ## The record line -/

section
variable (k : BitVec 4) (a : Address) (p : List Byte)

theorem recordLine_kind : (recordLine k a p).take 2 = [chS, hexdig k] := rfl

theorem recordLine_count : ((recordLine k a p).drop 2).take 2 = hex2 (BitVec.ofNat 8 (p.length + 3)) := rfl

theorem recordLine_addr : ((recordLine k a p).drop 4).take 4 = hex4 a := rfl

/-- The checksum stands after the payload. -/
theorem recordLine_cksum : ((recordLine k a p).drop (8 + 2 * p.length)).take 2 =
    hex2 (BitVec.ofNat 8 (cksum (p.length + 3) (addrHi a) (addrLo a) p)) :=
  take_drop_of_eq (before := [chS, hexdig k] ++ hex2 (BitVec.ofNat 8 (p.length + 3)) ++ hex4 a ++ p.flatMap hex2)
    (List.append_assoc _ _ _) (by simp; omega) rfl

/-- Nothing but the newline stands after the checksum. -/
theorem recordLine_end : (recordLine k a p).drop (10 + 2 * p.length) = [chLF] :=
  List.drop_left' (by simp; omega)

end

/-- Each byte of the payload stands at its place. -/
theorem recordLine_byte (k : BitVec 4) (a : Address) {p : List Byte} {i : Nat} {b : Byte} (h : p[i]? = some b) :
    ((recordLine k a p).drop (8 + 2 * i)).take 2 = hex2 b := by
  obtain ⟨hp, hi⟩ := eq_take_append_cons_drop h
  have hbytes : p.flatMap hex2 = (p.take i).flatMap hex2 ++ (hex2 b ++ (p.drop (i + 1)).flatMap hex2) := by
    conv_lhs => rw [hp]
    simp
  refine take_drop_of_eq
    (before := [chS, hexdig k] ++ hex2 (BitVec.ofNat 8 (p.length + 3)) ++ hex4 a ++ (p.take i).flatMap hex2)
    (after := (p.drop (i + 1)).flatMap hex2 ++
      (hex2 (BitVec.ofNat 8 (cksum (p.length + 3) (addrHi a) (addrLo a) p)) ++ [chLF])) ?_ ?_ rfl
  · simp only [recordLine, hbytes, List.append_assoc]
  · simp only [List.length_append, flatMap_hex2_length, hi, hex2_length, hex4_length, List.length_cons, List.length_nil]

/-- The line determines the record: its length the number of bytes, and each field what it shows (R76). -/
theorem recordLine_injective {k k' : BitVec 4} {a a' : Address} {p p' : List Byte}
    (h : recordLine k a p = recordLine k' a' p') : k = k' ∧ a = a' ∧ p = p' := by
  have hlen : p.length = p'.length := by
    have := congrArg List.length h
    simp only [recordLine_length] at this
    omega
  have hkind : [chS, hexdig k] = [chS, hexdig k'] := by rw [← recordLine_kind k a p, h, recordLine_kind]
  have haddr : hex4 a = hex4 a' := by rw [← recordLine_addr k a p, h, recordLine_addr]
  refine ⟨hexdig_injective k k' (by simpa using hkind), hex4_injective haddr, List.ext_getElem hlen fun i hi hi' => ?_⟩
  apply hex2_injective
  rw [← recordLine_byte k a (List.getElem?_eq_getElem hi), h, recordLine_byte k' a' (List.getElem?_eq_getElem hi')]

/-! ## The listing line -/

/-- A token and the separator after it (R82). -/
def asmTokenSep (b : Byte) : Text := chDollar :: hex2 b ++ [chComma, chSpace]

theorem flatMap_asmTokenSep_length (g : List Byte) : (g.flatMap asmTokenSep).length = 5 * g.length := by
  induction g with
  | nil => rfl
  | cons b g ih => simp [ih, asmTokenSep]; omega

/-- Every token but the last has the separator after it (R82). -/
theorem asmTokens_append_cons (g : List Byte) (b : Byte) (rest : List Byte) :
    asmTokens (g ++ b :: rest) = g.flatMap asmTokenSep ++ asmTokens (b :: rest) := by
  induction g with
  | nil => rfl
  | cons c g ih =>
    have hcons : asmTokens (c :: (g ++ b :: rest)) = asmTokenSep c ++ asmTokens (g ++ b :: rest) := by
      cases g <;> rfl
    rw [List.cons_append, hcons, ih, List.flatMap_cons, List.append_assoc]

/-- The tokens begin with the first byte's. -/
theorem asmTokens_cons (b : Byte) (g : List Byte) : ∃ after, asmTokens (b :: g) = (chDollar :: hex2 b) ++ after := by
  cases g with
  | nil => exact ⟨[], rfl⟩
  | cons c g => exact ⟨[chComma, chSpace] ++ asmTokens (c :: g), rfl⟩

section
variable (pre : Text) {g : List Byte}

/-- A listing line around the token at an index. -/
theorem asmLine_split {i : Nat} {b : Byte} (h : g[i]? = some b) :
    asmLine pre g = (pre ++ (g.take i).flatMap asmTokenSep) ++ (asmTokens (b :: g.drop (i + 1)) ++ [chLF]) ∧
      (pre ++ (g.take i).flatMap asmTokenSep).length = pre.length + 5 * i := by
  obtain ⟨hg, hi⟩ := eq_take_append_cons_drop h
  constructor
  · conv_lhs => rw [hg]
    simp only [asmLine, asmTokens_append_cons, List.append_assoc]
  · rw [List.length_append, flatMap_asmTokenSep_length, hi]

/-- Each token stands at its place (R82). -/
theorem asmLine_token {i : Nat} {b : Byte} (h : g[i]? = some b) :
    ((asmLine pre g).drop (pre.length + 5 * i)).take 3 = chDollar :: hex2 b := by
  obtain ⟨hline, hlen⟩ := asmLine_split pre h
  obtain ⟨after, hafter⟩ := asmTokens_cons b (g.drop (i + 1))
  exact take_drop_of_eq (after := after ++ [chLF]) (by rw [hline, hafter, List.append_assoc _ after]) hlen rfl

/-- A separator stands after each token but the last (R82). -/
theorem asmLine_separator {i : Nat} (h : i + 1 < g.length) :
    ((asmLine pre g).drop (pre.length + 5 * i + 3)).take 2 = [chComma, chSpace] := by
  have hi : i < g.length := by omega
  obtain ⟨hline, hlen⟩ := asmLine_split pre (List.getElem?_eq_getElem hi)
  rw [List.drop_eq_getElem_cons h, asmTokens_cons_cons] at hline
  refine take_drop_of_eq (before := pre ++ (g.take i).flatMap asmTokenSep ++ (chDollar :: hex2 g[i]))
    (after := asmTokens (g[i + 1] :: g.drop (i + 2)) ++ [chLF]) ?_ ?_ rfl
  · rw [hline]
    simp only [List.append_assoc]
  · rw [List.length_append, hlen]
    rfl

/-- What stands before the newline. -/
theorem asmLine_body_length (hg : g ≠ []) : (pre ++ asmTokens g).length = pre.length + 5 * g.length - 2 := by
  have := asmTokens_length hg
  rw [List.length_append]
  omega

end

end Sys2Proof.Machine

/-! ## The statements about the encodings -/

namespace Sys2Proof

open Machine

/-- Settles O23: the nibbles make the byte and the bytes the address, so the digits determine both. -/
theorem hexFieldsAreBigEndian : Obligations.HexFieldsAreBigEndian :=
  ⟨hexdig_toNat, fun b => ⟨_, _, rfl, byte_toNat b⟩, fun a => ⟨addrHi a, addrLo a, rfl, addr_toNat a⟩,
    fun _ _ h => hex2_injective h, fun _ _ h => hex4_injective h⟩

/-- Settles O24, field by field: what stands before a field has a fixed length but for the payload, two characters a byte. -/
theorem recordLineFieldsStandInOrder : Obligations.RecordLineFieldsStandInOrder :=
  fun k a p _ => ⟨recordLine_kind k a p, recordLine_count k a p, recordLine_addr k a p,
    fun _ _ h => recordLine_byte k a h, recordLine_cksum k a p, recordLine_end k a p⟩

/-- Settles O25: at most 252 bytes, so that the byte-count field does not wrap. -/
theorem recordLineLength : Obligations.RecordLineLength := by
  intro k a p hp
  have hcount : (BitVec.ofNat 8 (p.length + 3)).toNat = p.length + 3 := by
    rw [BitVec.toNat_ofNat]
    omega
  rw [recordLine_length]
  refine ⟨rfl, ⟨_, recordLine_count k a p, ?_⟩, ?_, ?_, ?_, ?_⟩ <;> omega

/-- Settles O28: a line's fields are its own, and each determines what it shows. -/
theorem recordLineDeterminesItsFields : Obligations.RecordLineDeterminesItsFields :=
  fun _ _ _ _ _ _ _ _ h => recordLine_injective h

/-- Settles O30, part by part: a token and its separator are five characters. -/
theorem listingLineFieldsStandInOrder : Obligations.ListingLineFieldsStandInOrder := by
  intro pre g hpos _
  have hbody := asmLine_body_length pre (List.ne_nil_of_length_pos hpos)
  refine ⟨?_, fun _ _ h => asmLine_token pre h, fun _ h => asmLine_separator pre h, List.drop_left' hbody, ?_⟩
  · rw [asmLine, List.append_assoc, List.take_left' rfl]
  · rw [asmLine, List.length_append, hbody]
    simp only [List.length_cons, List.length_nil]
    omega

end Sys2Proof

/-! The record encoder: what the accept step makes of a command, the datapath's line, the block step of `REC`, and the run
of an operation with a prompt host (`40_record_encoder.md`). -/

namespace Sys2Proof.Machine

/-! ## The accept step, written out -/

section
variable {s : State} {i : Instr}

/-- A command that passes every check is in its first phase (R184). -/
theorem accept_of_check_none {o : BitVec 2} {k : BitVec 4} {a : Address} {l : Nat} (hc : check s.cfg o k l = none) :
    accept o k a l s = afterAccept o k a l (firstPhase o) 0 s := by
  rw [accept, hc]
  rfl

/-- A command that fails a check is at its fault entry (R184, R190). -/
theorem accept_of_check_some {o : BitVec 2} {k : BitVec 4} {a : Address} {l : Nat} {c : FaultCause}
    (hc : check s.cfg o k l = some c) : accept o k a l s = afterAccept o k a l .err c.code s := by
  rw [accept, hc]
  rfl

/-- A ready block accepts a command whose `LEN` the port carries (R184). -/
theorem exec_of_ready (h : Ready s) (hl : i.len < 2 ^ s.cfg.lenW) :
    exec i s = .next (accept i.op i.kind i.addr i.len s) := by
  obtain ⟨hr, hb⟩ := h
  simp [exec_eq_startCommand, startCommand, hr, hb, lenFits_iff.mpr hl]

/-- At the fault entry nothing is offered and nothing requested (R190). -/
theorem takesFault_of_check_some (h : Ready s) (hl : i.len < 2 ^ s.cfg.lenW) {c : FaultCause}
    (hc : check s.cfg i.op i.kind i.len = some c) : TakesFault i c.code s :=
  ⟨_, accept_of_check_some hc ▸ exec_of_ready h hl, rfl, rfl, rfl, rfl, rfl⟩

end

/-! ## The forms of `REC` -/

/-- Each legal form is a `REC` of a supported kind, on its operands, with the largest payload of that kind (R73, R104). -/
theorem recordForms_fields {f : (Address → Nat → Instr) × BitVec 4 × Nat} (hf : f ∈ recordForms) (a : Address) (l : Nat) :
    ((f.1 a l).op = 0b00#2 ∧ (f.1 a l).kind = f.2.1 ∧ (f.1 a l).addr = a ∧ (f.1 a l).len = l) ∧
      kindLegal f.2.1 = true ∧ maxPayload f.2.1 = f.2.2 := by
  simp only [recordForms, List.mem_cons, List.not_mem_nil, or_false] at hf
  rcases hf with rfl | rfl | rfl | rfl <;> exact ⟨⟨rfl, rfl, rfl, rfl⟩, rfl, rfl⟩

/-- Each illegal form is a `REC` of an unsupported kind, on its operands (R74). -/
theorem illegalForms_fields {f : (Address → Nat → Instr) × BitVec 4} (hf : f ∈ illegalForms) (a : Address) (l : Nat) :
    ((f.1 a l).op = 0b00#2 ∧ (f.1 a l).kind = f.2 ∧ (f.1 a l).addr = a ∧ (f.1 a l).len = l) ∧
      kindLegal f.2 = false := by
  simp only [illegalForms, List.mem_cons, List.not_mem_nil, or_false] at hf
  rcases hf with rfl | rfl | rfl | rfl | rfl | rfl | rfl | rfl | rfl | rfl | rfl | rfl <;>
    exact ⟨⟨rfl, rfl, rfl, rfl⟩, rfl⟩

theorem lenLegal_iff {k : BitVec 4} {l : Nat} : lenLegal k l = true ↔ l ≤ maxPayload k := by simp [lenLegal]

/-- No kind takes more than the 252 bytes a line can hold (R100, R104). -/
theorem maxPayload_le (k : BitVec 4) : maxPayload k ≤ 252 := by
  unfold maxPayload
  split
  · exact le_rfl
  · split <;> decide

/-- A form with a legal length whose text fits passes every check (R104, R191). -/
theorem check_recordForm_eq_none {f : (Address → Nat → Instr) × BitVec 4 × Nat} (hf : f ∈ recordForms) {cfg : Config}
    {l : Nat} (hl : l ≤ f.2.2) (hfit : Fits cfg (11 + 2 * l)) : check cfg 0b00#2 f.2.1 l = none := by
  obtain ⟨-, hkind, hmax⟩ := recordForms_fields hf 0 0
  exact check_eq_none.mpr (.inl ⟨rfl, hkind, lenLegal_iff.mpr (hmax ▸ hl), hfit⟩)

/-- A form with a length outside the table fails the length check (R104, R195). -/
theorem check_recordForm_eq_some {f : (Address → Nat → Instr) × BitVec 4 × Nat} (hf : f ∈ recordForms) {cfg : Config}
    {l : Nat} (hl : f.2.2 < l) : check cfg 0b00#2 f.2.1 l = some .payloadLengthRange := by
  obtain ⟨-, hkind, hmax⟩ := recordForms_fields hf 0 0
  have hlen : ¬ lenLegal f.2.1 l = true := by rw [lenLegal_iff]; omega
  simp [check, checkRecord, hkind, hlen]

/-- An unsupported kind fails the first check of `REC`, whatever the length is (R109, R192). -/
theorem check_of_illegal_kind {k : BitVec 4} (hk : kindLegal k = false) (cfg : Config) (l : Nat) :
    check cfg 0b00#2 k l = some .unsupportedRecordKind := by
  simp [check, checkRecord, hk]

/-! ## The line -/

/-- `BuildLine` is the closed form, with the count in `BCNT` and the low byte of the sum in `SUM` (R112). -/
theorem buildLine_eq_recordLine (k : BitVec 4) (a : Address) (p : List Byte) (s : State) :
    buildLine k a p s = { s with
      out := s.out ++ recordLine k a p
      bcnt := BitVec.ofNat 8 (p.length + 3)
      sum := recordSum a p } := by
  rw [← buildLine_out, ← lineSum_eq_recordSum, buildLine_eq]

/-! ## The block step of each phase, where it does not wait -/

section
variable {s : State}

/-- A payload of a `REC` in progress is one a line can hold (R104). -/
theorem Inv.len_le_of_record (h : Inv s) (hp : s.phase = .record) : s.len ≤ 252 := by
  obtain ⟨-, -, hlen⟩ := h.recordOp hp
  exact (lenLegal_iff.mp hlen).trans (maxPayload_le _)

/-- Once the payload is read the line is appended and the wait for the sink begins (R110, R63). -/
theorem Inv.blockStep_record (h : Inv s) (hp : s.phase = .record) (hd : s.draining = false) (hr : inRe s = false) :
    blockStep s = .next (buildLine s.kind s.addr (buffer s) s).clearGot.drain := by
  have hline : emitRecord s.kind s.addr (buffer s) s = .next (buildLine s.kind s.addr (buffer s) s) :=
    emitRecord_eq_next.mpr ⟨by rw [buffer_length]; exact h.len_le_of_record hp, rfl⟩
  simp [blockStep, hp, stepRecord, hd, hr, h.got_eq_buffer hp hd hr, hline]

theorem blockStep_hdr (hp : s.phase = .hdr) :
    blockStep s = .next ((buildLine 0#4 0x0000#16 s.cfg.hdrTag.bytes s).setPhase .data) := by
  simp [blockStep, hp, stepHdr, emitRecord]

theorem blockStep_data_exit (hp : s.phase = .data) (h0 : s.remaining = 0) :
    blockStep s = .next (s.setPhase .cnt) := by
  simp [blockStep, hp, stepData, h0]

theorem Inv.blockStep_data (h : Inv s) (hp : s.phase = .data) (h0 : s.remaining ≠ 0) (hr : inRe s = false) :
    blockStep s = .next
      ((buildLine 1#4 (BitVec.ofNat 16 s.offset) s.got s).clearGot.advance (chunkLen s)).countRecord := by
  have hgot : s.got.length ≤ 252 := by
    have hneed : s.got.length ≤ chunkLen s := by simpa [need, hp] using h.gotLe
    unfold chunkLen at hneed
    omega
  simp [blockStep, hp, stepData, h0, hr, emitRecord, hgot]

theorem blockStep_cnt (hp : s.phase = .cnt) :
    blockStep s = .next ((buildLine 5#4 s.reccnt [] s).setPhase .term) := by
  simp [blockStep, hp, stepCnt, emitRecord]

theorem blockStep_term (hp : s.phase = .term) (hd : s.draining = false) :
    blockStep s = .next (buildLine 9#4 0x0000#16 [] s).drain := by
  simp [blockStep, hp, stepTerm, hd, emitRecord]

theorem blockStep_asm_exit (hp : s.phase = .asm) (h0 : s.remaining = 0) (hs : s.sent = s.out.length) :
    blockStep s = .next (s.setPhase .done) := by
  simp [blockStep, hp, stepAsm, h0, hs]

theorem blockStep_asm (hp : s.phase = .asm) (h0 : s.remaining ≠ 0) (hr : inRe s = false) :
    blockStep s = .next ((s.emitStr (asmLine s.cfg.asmPrefix s.got)).clearGot.advance (chunkLen s)) := by
  simp [blockStep, hp, stepAsm, h0, hr]

end

/-! ## The work an operation has left -/

section
variable {s t : State}

/-- Outside `BUSY` no move is left to make. -/
theorem workLeft_of_not_busy (hb : s.busy = false) : workLeft s = 0 := by
  rcases (not_busy_iff s).mp hb with e | e | e <;> simp [workLeft, stepsLeft, readsLeft, transfersLeft, hb, e]

/-- The length of the text is the accepted command's (R191). -/
theorem opLength_congr (hc : SameCommand s t) (hh : SameHostData s t) : opLength t = opLength s := by
  obtain ⟨hop, -, -, hlen, -⟩ := hc
  obtain ⟨hcfg, -⟩ := hh
  simp only [opLength, hop, hlen, hcfg]

/-- The text is the accepted command's on the buffer it was accepted with (R66). -/
theorem finalText_congr (hc : SameCommand s t) (hh : SameHostData s t) : finalText t = finalText s := by
  obtain ⟨hop, hkind, haddr, hlen, -⟩ := hc
  obtain ⟨hcfg, hin⟩ := hh
  simp only [finalText, hop, hkind, haddr, hcfg, buffer_congr hin hlen]

theorem ceil16_mono {n m : Nat} (h : n ≤ m) : ceil16 n ≤ ceil16 m := by
  unfold ceil16
  omega

/-- The first lines of a listing are no longer than the whole. -/
theorem asmLines_length_le (cfg : Config) {b : List Byte} {n : Nat} (hn : n ≤ ceil16 b.length) :
    (asmLines cfg.asmPrefix b n).length ≤ asmLength cfg b.length := by
  have hlines := asmLines_length cfg.asmPrefix hn
  have hpre := Nat.mul_le_mul_right cfg.asmPrefix.length hn
  unfold asmLength
  unfold ceil16 at hn hlines hpre ⊢
  omega

/-- What is in `OUT` is never longer than the text the accept step checked (R194). -/
theorem out_length_le (h : Inv s) (hx : TextInv s) (hb : s.busy = true) : s.out.length ≤ opLength s := by
  unfold TextInv at hx
  have hsrec (hs : s.phase.ofSrec) : opLength s = 43 + 11 * ceil16 s.len + 2 * s.len := by
    simp [opLength, h.srecOp hs, srecLength]
  have hhead : (headerLine s.cfg).length = 21 := recordLine_length 0#4 0#16 s.cfg.hdrTag.bytes
  rcases (busy_iff s).mp hb with e | e | e | e | e | e <;> simp only [e] at hx
  · rw [hx, opLength, (h.recordOp e).1]
    split <;> simp [recordLength]
  · rw [hx]
    exact Nat.zero_le _
  · have hle : ceil16 s.offset ≤ ceil16 s.len := ceil16_mono (by have := h.split (.inl e); omega)
    rw [hx, hsrec (.inr (.inl e)), (h.count (.inl e)).1, List.length_append, hhead, dataLines_length, buffer_length]
    omega
  · rw [hx, hsrec (.inr (.inr (.inl e))), List.length_append, hhead, dataLines_length, buffer_length]
    omega
  · rw [hx, hsrec (.inr (.inr (.inr e)))]
    simp only [List.length_append, hhead, dataLines_length, buffer_length, recordLine_length, List.length_nil]
    split <;> simp only [recordLine_length, List.length_nil] <;> omega
  · have hle : ceil16 s.offset ≤ ceil16 s.len := ceil16_mono (by have := h.split (.inr (.inr (.inr e))); omega)
    rw [hx, opLength, h.asmOp e, ← buffer_length s]
    exact asmLines_length_le s.cfg (by rwa [buffer_length])

/-- A move within the operation that hands over nothing leaves the transfers. -/
theorem transfersLeft_congr (hc : SameCommand s t) (hh : SameHostData s t) (hb : t.busy = s.busy) (hs : t.sent = s.sent) :
    transfersLeft t = transfersLeft s := by
  simp only [transfersLeft, opLength_congr hc hh, hb, hs]

/-- While the block waits for the sink, the transfers of its last line are all that is left (R63). -/
theorem workLeft_of_draining (h : Inv s) (hd : s.draining = true) : workLeft s = transfersLeft s := by
  rcases (h.drainIn hd).1 with e | e <;> simp [workLeft, stepsLeft, readsLeft, e, hd]

/-- A transfer is one of the moves the operation has left, and the last one of a wait ends it with none (R63, R223). -/
theorem workLeft_takeChar (h : Inv s) (hx : TextInv s) (hb : s.busy = true) (hlt : s.sent < s.out.length)
    (ht : takeChar s = .next t) : workLeft t + 1 = workLeft s := by
  have hlen := out_length_le h hx hb
  rw [takeChar, if_pos hlt, Host.Outcome.next.injEq] at ht
  subst ht
  rcases finishIfDrained_cases s.transfer with ⟨hd, hsent, e⟩ | ⟨-, e⟩ <;> rw [e]
  · have hlast : lastLineOut s = true := (lastLineOut_iff s).mpr (.inl hd)
    have hout : s.out.length = opLength s := by rw [← finalText_length, ← out_eq_finalText h hx hlast]
    rw [workLeft_of_not_busy rfl, workLeft_of_draining h hd, transfersLeft, if_pos hb]
    simp only [State.transfer_sent, State.transfer_out] at hsent
    omega
  · have hsame : stepsLeft s.transfer = stepsLeft s ∧ readsLeft s.transfer = readsLeft s := ⟨rfl, rfl⟩
    have hone : transfersLeft s.transfer + 1 = transfersLeft s := by
      have hop : opLength s.transfer = opLength s := rfl
      have hbusy : s.transfer.busy = s.busy := rfl
      simp only [transfersLeft, hop, hbusy, hb, if_true, State.transfer_sent]
      omega
    simp only [workLeft, hsame, ← hone, Nat.add_assoc]

/-- A read is one of the moves the operation has left (R53, R223). -/
theorem workLeft_stage (hr : inRe s = true) (b : Byte) : workLeft (s.stage b) + 1 = workLeft s := by
  have hgot : s.got.length < need s := by simpa [inRe] using hr
  have hsame : stepsLeft (s.stage b) = stepsLeft s ∧ transfersLeft (s.stage b) = transfersLeft s := ⟨rfl, rfl⟩
  have hone : readsLeft (s.stage b) + 1 = readsLeft s := by
    simp only [need, chunkLen] at hgot
    simp only [readsLeft, State.stage_phase, State.stage_draining, State.stage_len, State.stage_remaining, State.stage_got,
      List.length_append, List.length_singleton]
    cases hp : s.phase <;> simp only [hp] at hgot ⊢
    case record => split at hgot <;> simp_all; omega
    all_goals omega
  simp only [workLeft, hsame, ← hone]
  omega

/-! ## The block step is progress where it does not wait -/

/-- Nothing keeps the block step waiting: no byte is requested, and what a last step must hand over is handed over
(R219, R223). -/
structure Unhindered (s : State) : Prop where
  read : inRe s = false
  taken : s.draining = false
  exit : s.phase = .asm → s.remaining = 0 → s.sent = s.out.length

/-- A block step that stays `BUSY` hands over nothing, so it is progress where its steps and reads are (R223). -/
theorem workLeft_blockStep (ht : blockStep s = .next t) (hb : t.busy = s.busy) (hs : t.sent = s.sent)
    (hw : stepsLeft t + readsLeft t + 1 = stepsLeft s + readsLeft s) : workLeft t + 1 = workLeft s := by
  have htrans := transfersLeft_congr (blockStep_sameCommand ht) (blockStep_sameHostData ht) hb hs
  simp only [workLeft, htrans]
  omega

/-- A chunk is one block step, and its bytes are read (R133, R162). -/
theorem ceil16_sub_chunk {n : Nat} (h : n ≠ 0) : ceil16 (n - min 16 n) + 1 = ceil16 n := by
  unfold ceil16
  omega

/-- A line of a traversal is one block step, and the reads of its chunk are done (R133, R162). -/
theorem stepsLeft_readsLeft_chunk (h : Inv s) (hp : s.phase = .data ∨ s.phase = .asm) (h0 : s.remaining ≠ 0)
    (hr : inRe s = false) (hpt : t.phase = s.phase) (hrem : t.remaining = s.remaining - chunkLen s) (hgot : t.got = []) :
    stepsLeft t + readsLeft t + 1 = stepsLeft s + readsLeft s := by
  have hread : s.got.length = chunkLen s := by
    have hneed : need s = chunkLen s := by rcases hp with e | e <;> simp [need, e]
    rw [h.got_of_not_inRe hr, inSlice_length, hneed]
  have hsteps := ceil16_sub_chunk h0
  unfold chunkLen at hread hrem
  rcases hp with e | e <;>
    simp only [stepsLeft, readsLeft, hpt, e, hrem, hgot, List.length_nil] <;> omega

/-- Where nothing keeps it waiting, the block step answers and is one of the moves the operation has left. -/
theorem blockStep_progress (h : Inv s) (hx : TextInv s) (hb : s.busy = true) (hu : Unhindered s) :
    ∃ t, blockStep s = .next t ∧ workLeft t + 1 = workLeft s := by
  obtain ⟨hr, hd, hexit⟩ := hu
  have hbusy {t : State} (e : t.phase.status = 1) : t.busy = s.busy := by rw [hb, busy_iff_status]; exact e
  rcases (busy_iff s).mp hb with e | e | e | e | e | e
  · -- `REC`: the line
    have ht := h.blockStep_record e hd hr
    have hread : s.got.length = s.len := by rw [h.got_eq_buffer e hd hr, buffer_length]
    refine ⟨_, ht, workLeft_blockStep ht (hbusy (by simp [e, Phase.status])) (by simp) ?_⟩
    simp [stepsLeft, readsLeft, e, hd, hread]
  · -- `HDR`: the header, and all of the buffer is still to be read
    have ht := blockStep_hdr e
    obtain ⟨-, hrem, -⟩ := h.fresh (.inr e)
    have hgot : s.got = [] := h.got_eq_nil (by simp [need, e])
    refine ⟨_, ht, workLeft_blockStep ht (hbusy rfl) (by simp) ?_⟩
    simp only [stepsLeft, readsLeft, State.setPhase_phase, State.setPhase_remaining, State.setPhase_got, buildLine_remaining,
      buildLine_got, e, hgot, hrem, List.length_nil]
    omega
  · by_cases h0 : s.remaining = 0
    · -- the exit of `DATA`
      have ht := blockStep_data_exit e h0
      refine ⟨_, ht, workLeft_blockStep ht (hbusy rfl) rfl ?_⟩
      simp [stepsLeft, readsLeft, e, h0, ceil16]
    · -- `DATA`: a chunk
      have ht := h.blockStep_data e h0 hr
      exact ⟨_, ht, workLeft_blockStep ht (hbusy (by simp [e, Phase.status])) (by simp)
        (stepsLeft_readsLeft_chunk h (.inl e) h0 hr (by simp) (by simp) rfl)⟩
  · -- `CNT`: the count record
    have ht := blockStep_cnt e
    refine ⟨_, ht, workLeft_blockStep ht (hbusy rfl) (by simp) ?_⟩
    simp [stepsLeft, readsLeft, e, hd]
  · -- `TERM`: the terminator
    have ht := blockStep_term e hd
    refine ⟨_, ht, workLeft_blockStep ht (hbusy (by simp [e, Phase.status])) (by simp) ?_⟩
    simp [stepsLeft, readsLeft, e, hd]
  · by_cases h0 : s.remaining = 0
    · -- the exit of `ASM`: every character of the text is handed over
      have hs := hexit e h0
      have hout := out_eq_finalText h hx ((lastLineOut_iff s).mpr (.inr ⟨e, h0⟩))
      have hzero : transfersLeft s = 0 := by rw [transfersLeft, if_pos hb, ← finalText_length, ← hout, hs, Nat.sub_self]
      refine ⟨_, blockStep_asm_exit e h0 hs, ?_⟩
      rw [workLeft_of_not_busy rfl]
      simp [workLeft, stepsLeft, readsLeft, hzero, e, h0, ceil16]
    · -- `ASM`: a chunk
      have ht := blockStep_asm e h0 hr
      exact ⟨_, ht, workLeft_blockStep ht (hbusy (by simp [e, Phase.status])) (by simp)
        (stepsLeft_readsLeft_chunk h (.inr e) h0 hr (by simp) (by simp) rfl)⟩

/-! ## The moves of a prompt host -/

/-- A prompt host takes, else supplies, else lets the block move, and then nothing keeps the block waiting. -/
theorem promptMove_cases (h : Inv s) :
    (promptMove s = .take ∧ s.sent < s.out.length) ∨ (promptMove s = .supply ∧ inRe s = true) ∨
    (promptMove s = .blockStep ∧ Unhindered s) := by
  unfold promptMove
  split
  · next hlt => exact .inl ⟨rfl, hlt⟩
  · next hlt =>
    have hsent : s.sent = s.out.length := Nat.le_antisymm h.sentLe (Nat.le_of_not_lt hlt)
    split
    · next hr => exact .inr (.inl ⟨rfl, hr⟩)
    · next hr =>
      have hd : s.draining = false := by
        by_contra hd
        exact hlt (h.drainIn (by simpa using hd)).2
      exact .inr (.inr ⟨rfl, by simpa using hr, hd, fun _ _ => hsent⟩)

/-- The move of a prompt host is one of the moves the operation has left (R223). -/
theorem promptMove_progress (h : Inv s) (hx : TextInv s) (hb : s.busy = true) :
    ∃ t, perform (promptMove s) s = .next t ∧ workLeft t + 1 = workLeft s := by
  rcases promptMove_cases h with ⟨e, hlt⟩ | ⟨e, hr⟩ | ⟨e, hu⟩ <;> rw [e]
  · have ht : takeChar s = .next s.transfer.finishIfDrained := if_pos hlt
    exact ⟨_, (afterReset_of_seen h.reset _).trans ht, workLeft_takeChar h hx hb hlt ht⟩
  · exact ⟨_, (afterReset_of_seen h.reset _).trans (h.supplyByte_of_inRe hr), workLeft_stage hr _⟩
  · obtain ⟨t, ht, hw⟩ := blockStep_progress h hx hb hu
    exact ⟨t, (afterReset_of_seen h.reset _).trans ht, hw⟩

/-- What a step with a prompt host does is a transfer, a read or a block step, on the state with the move counted. -/
theorem promptStep_cases (ht : promptStep s = .next t) :
    takeChar (s.popMove s.moves) = .next t ∨ supplyByte (s.popMove s.moves) = .next t ∨
    blockStep (s.popMove s.moves) = .next t := by
  have hstep : perform (promptMove s) (s.popMove s.moves) = .next t := ht
  unfold promptMove at hstep
  split at hstep
  · exact .inl (afterReset_eq_next.mp hstep).2
  · split at hstep
    · exact .inr (.inl (afterReset_eq_next.mp hstep).2)
    · exact .inr (.inr (afterReset_eq_next.mp hstep).2)

theorem promptStep_sameCommand (ht : promptStep s = .next t) : SameCommand s t := by
  rcases promptStep_cases ht with e | e | e
  · exact takeChar_sameCommand (s := s.popMove s.moves) e
  · exact supplyByte_sameCommand (s := s.popMove s.moves) e
  · exact blockStep_sameCommand (s := s.popMove s.moves) e

theorem promptStep_sameHostData (ht : promptStep s = .next t) : SameHostData s t := by
  rcases promptStep_cases ht with e | e | e
  · exact takeChar_sameHostData (s := s.popMove s.moves) e
  · exact supplyByte_sameHostData (s := s.popMove s.moves) e
  · exact blockStep_sameHostData (s := s.popMove s.moves) e

/-- An operation's block steps go on or end in `DONE`, with no fault on the way (R145, R203). -/
theorem blockStep_busy_or_done (hb : s.busy = true) (ht : blockStep s = .next t) : t.busy = true ∨ t.phase = .done := by
  rcases blockStep_cases ht with rfl | ⟨hp, -, -, -, rfl⟩ | ⟨-, rfl⟩ | ⟨-, -, rfl⟩ | ⟨hp, -, -, -, rfl⟩ | ⟨-, rfl⟩ |
    ⟨hp, -, rfl⟩ | ⟨-, -, -, rfl⟩ | ⟨hp, -, -, rfl⟩
  case inl => exact .inl hb
  all_goals simp [busy_iff, *]

/-- With a prompt host an operation goes on or ends in `DONE` (R223). -/
theorem promptStep_busy_or_done (hb : s.busy = true) (ht : promptStep s = .next t) : t.busy = true ∨ t.phase = .done := by
  have hkeep (e : t.phase = s.phase) : t.busy = true := by rw [busy_iff, e, ← busy_iff]; exact hb
  rcases promptStep_cases ht with e | e | e
  · rcases takeChar_cases (s.popMove s.moves) with ⟨-, e'⟩ | ⟨-, e'⟩ <;> rw [e'] at e <;> cases e
    · rcases finishIfDrained_cases (s.popMove s.moves).transfer with ⟨-, -, e⟩ | ⟨-, e⟩ <;> rw [e]
      · exact .inr rfl
      · exact .inl hb
    · exact .inl hb
  · exact .inl (hkeep (supplyByte_phase (s := s.popMove s.moves) e))
  · exact blockStep_busy_or_done (s := s.popMove s.moves) hb e

theorem promptStep_keeps_inv (h : Inv s) (ht : promptStep s = .next t) : Inv t :=
  step_keeps_inv (s := { s with moves := promptMove s :: s.moves }) { h with } ht

theorem promptStep_keeps_text (h : Inv s) (hx : TextInv s) (ht : promptStep s = .next t) : TextInv t :=
  step_keeps_text (s := { s with moves := promptMove s :: s.moves }) { h with } hx ht

/-- The step with a prompt host that enters `DONE` leaves the whole text in `OUT` and with the sink (R63). -/
theorem promptStep_enters_done (h : Inv s) (hx : TextInv s) (hb : s.busy = true) (ht : promptStep s = .next t)
    (hd : t.phase = .done) : t.out = finalText s ∧ t.rx = finalText s ∧ t.errcode = 0 ∧ t.input = s.input := by
  obtain ⟨hout, hrx, -, hcode, hin, -⟩ :=
    doneMeansTheWholeText { s with moves := promptMove s :: s.moves } t { h with } hx hb ht hd
  exact ⟨hout, hrx, hcode, hin⟩

/-- Every step with a prompt host is one of the moves the operation has left (R223). -/
theorem promptStep_progress (h : Inv s) (hx : TextInv s) (hb : s.busy = true) :
    ∃ t, promptStep s = .next t ∧ workLeft t + 1 = workLeft s :=
  promptMove_progress (s := s.popMove s.moves) (popMove_keeps_inv h _) hx hb

/-- With a prompt host an operation is in `DONE` after exactly the moves it has left, its text in `OUT` and with the sink; and
what the steps of an operation keep holds then (R144, R223). -/
theorem promptRun_workLeft {P : State → Prop}
    (hP : ∀ v w, Inv v → v.busy = true → promptStep v = .next w → P v → P w)
    (h : Inv s) (hx : TextInv s) (hb : s.busy = true) (h0 : P s) :
    ∃ u, promptRun (workLeft s) s = .next u ∧ u.phase = .done ∧ P u ∧
      u.out = finalText s ∧ u.rx = finalText s ∧ u.errcode = 0 ∧ u.input = s.input := by
  induction hn : workLeft s generalizing s with
  | zero =>
    obtain ⟨t, -, hw⟩ := promptStep_progress h hx hb
    omega
  | succ n ih =>
    obtain ⟨t, ht, hw⟩ := promptStep_progress h hx hb
    have hwt : workLeft t = n := by omega
    have hPt := hP s t h hb ht h0
    have hrun : promptRun (n + 1) s = promptRun n t := by simp only [promptRun, ht]
    rw [hrun]
    rcases promptStep_busy_or_done hb ht with hbt | hd
    · have hhost := promptStep_sameHostData ht
      have htext := finalText_congr (promptStep_sameCommand ht) hhost
      have hin : t.input = s.input := hhost.2
      rw [← htext, ← hin]
      exact ih (promptStep_keeps_inv h ht) (promptStep_keeps_text h hx ht) hbt hPt hwt
    · have hzero : n = 0 := by rw [← hwt, workLeft_of_not_busy ((not_busy_iff t).mpr (.inr (.inl hd)))]
      subst hzero
      exact ⟨t, rfl, hd, hPt, promptStep_enters_done h hx hb ht hd⟩

/-- A ready block that accepts a command runs it to its text with a prompt host (R184, R223). -/
theorem promptRun_afterAccept {P : State → Prop}
    (hP : ∀ v w, Inv v → v.busy = true → promptStep v = .next w → P v → P w)
    {o : BitVec 2} {k : BitVec 4} {a : Address} {l : Nat} (h : Ready s) (hl : l < 2 ^ s.cfg.lenW)
    (hc : check s.cfg o k l = none) (ht : t = afterAccept o k a l (firstPhase o) 0 s) (h0 : P t) :
    ∃ u, promptRun (workLeft t) t = .next u ∧ u.phase = .done ∧ P u ∧
      u.out = finalText t ∧ u.rx = finalText t ∧ u.errcode = 0 ∧ u.input = s.input := by
  have haccept : t = accept o k a l s := by rw [ht, accept_of_check_none hc]
  have hinv : Inv t := haccept ▸ inv_accept h.1 hl o k a
  have htext : TextInv t := haccept ▸ text_accept o k a l s
  have hbusy : t.busy = true := by rw [ht]; rcases op_cases o with rfl | rfl | rfl | rfl <;> rfl
  have hin : t.input = s.input := by rw [ht]; rfl
  rw [← hin]
  exact promptRun_workLeft hP hinv htext hbusy h0

/-! ## The traversal registers of `REC` -/

/-- A `REC` with `OFFSET`, `REMAINING` and `RECCNT` as accept left them (R110, R184). -/
def Untraversed (l : Nat) (s : State) : Prop := s.op = 0b00#2 ∧ s.offset = 0 ∧ s.remaining = l ∧ s.reccnt = 0

/-- In `BUSY` the operation code of `REC` is that of its phase (R184). -/
theorem Inv.phase_eq_record (h : Inv s) (hb : s.busy = true) (hop : s.op = 0b00#2) : s.phase = .record := by
  have hsrec : ¬ s.phase.ofSrec := fun e => by simp [(h.srecOp e).1] at hop
  have hasm : ¬ s.phase = .asm := fun e => by simp [h.asmOp e] at hop
  have hp := (busy_iff s).mp hb
  unfold Phase.ofSrec at hsrec
  tauto

/-- Nothing in the run of a `REC` writes the traversal registers (R110). -/
theorem promptStep_keeps_untraversed {l : Nat} (h : Inv s) (hb : s.busy = true) (ht : promptStep s = .next t)
    (hs : Untraversed l s) : Untraversed l t := by
  have hp := h.phase_eq_record hb hs.1
  rcases promptStep_cases ht with e | e | e
  · rcases takeChar_cases (s.popMove s.moves) with ⟨-, e'⟩ | ⟨-, e'⟩ <;> rw [e'] at e <;> cases e
    · simpa [Untraversed] using hs
    · exact hs
  · rcases supplyByte_cases (s.popMove s.moves) with ⟨-, -, e'⟩ | ⟨-, -, e'⟩ | ⟨-, e'⟩ <;> rw [e'] at e <;> cases e <;>
      exact hs
  · rcases blockStep_cases e with rfl | ⟨-, -, -, -, rfl⟩ | hrest
    · exact hs
    · simpa [Untraversed] using hs
    · simp [hp] at hrest

end

end Sys2Proof.Machine

/-! ## The statements about the record encoder -/

namespace Sys2Proof

open Machine

/-- Settles O15, by the form's fields: the kind is supported, so the length decides. -/
theorem recordFormsTakeTheirLegalLengths : Obligations.RecordFormsTakeTheirLegalLengths := by
  intro f hf a l s h hw
  obtain ⟨⟨hop, hkind, haddr, hlen⟩, -⟩ := recordForms_fields hf a l
  have hw' : (f.1 a l).len < 2 ^ s.cfg.lenW := by rwa [hlen]
  refine ⟨fun hl hfit => ?_, fun hl => ?_⟩
  · rw [exec_of_ready h hw', hop, hkind, haddr, hlen, accept_of_check_none (check_recordForm_eq_none hf hl hfit)]
    rfl
  · have hc : check s.cfg (f.1 a l).op (f.1 a l).kind (f.1 a l).len = some .payloadLengthRange := by
      rw [hop, hkind, hlen]; exact check_recordForm_eq_some hf hl
    exact takesFault_of_check_some h hw' hc

/-- Settles O16: the kind is looked at before the length. -/
theorem illegalKindsTakeTheirFault : Obligations.IllegalKindsTakeTheirFault := by
  intro f hf a l s h hw
  obtain ⟨⟨hop, hkind, haddr, hlen⟩, hillegal⟩ := illegalForms_fields hf a l
  have hw' : (f.1 a l).len < 2 ^ s.cfg.lenW := by rwa [hlen]
  have hc : check s.cfg (f.1 a l).op (f.1 a l).kind (f.1 a l).len = some .unsupportedRecordKind := by
    rw [hop, hkind]; exact check_of_illegal_kind hillegal s.cfg _
  refine ⟨?_, takesFault_of_check_some h hw' hc⟩
  rw [exec_of_ready h hw', accept_of_check_some hc, hop, hkind, haddr, hlen]
  rfl

/-- Settles O26: the checksum byte is what the sum lacks to 0xFF, and the identity is modulo 256 as the printed bytes are. -/
theorem checksumIdentity : Obligations.ChecksumIdentity := by
  intro k a p _
  refine ⟨_, _, recordLine_count k a p, recordLine_cksum k a p, ?_⟩
  simp only [BitVec.toNat_ofNat, cksum]
  omega

/-- Settles O29. -/
theorem datapathBuildsTheLine : Obligations.DatapathBuildsTheLine :=
  fun k a p s _ => buildLine_eq_recordLine k a p s

/-- Settles O35: the payload read is the buffer, and the datapath's line on it is the closed form. -/
theorem recordStepEmitsItsLine : Obligations.RecordStepEmitsItsLine := by
  intro s h hp hd hgot
  have hr : inRe s = false := by simp [inRe, need, hp, hd, hgot]
  rw [perform, afterReset_of_seen h.reset, h.blockStep_record hp hd hr, buildLine_eq_recordLine, buffer_length]
  rfl

/-- Settles O56: accept leaves 1 block step, `LEN` reads and `11 + 2*LEN` transfers, each move of a prompt host makes one of
them, and none writes the traversal registers. -/
theorem recordRunsToItsLine : Obligations.RecordRunsToItsLine := by
  intro f hf a l s h hw hl hfit
  obtain ⟨hexec, -⟩ := recordFormsTakeTheirLegalLengths f hf a l s h hw
  have hcheck := check_recordForm_eq_none hf hl hfit
  have hwork : workLeft (afterAccept 0b00#2 f.2.1 a l .record 0 s) = 1 + l + (11 + 2 * l) := rfl
  obtain ⟨u, hrun, hdone, ⟨-, hoff, hrem, hcnt⟩, hout, hrx, hcode, hin⟩ :=
    promptRun_afterAccept (a := a) (fun _ _ => promptStep_keeps_untraversed) h hw hcheck rfl ⟨rfl, rfl, rfl, rfl⟩
  exact ⟨_, u, hexec hl hfit, hwork ▸ hrun, hdone, hcode, hout, hrx.trans hout.symm, hoff, hrem, hcnt, hin⟩

end Sys2Proof

/-! The sequencer of `SREC`: its chunks and its text, its accept step, its block steps, the transfers of `PHASE`, and its run
with a prompt host (`41_srec_sequencer.md`). -/

namespace Sys2Proof.Machine

/-! ## The chunks of a buffer -/

/-- The first `n` chunks are the first `16 * n` bytes of the buffer, in order (R137). -/
theorem flatMap_chunk_range (b : List Byte) (n : Nat) : (List.range n).flatMap (chunk b) = b.take (16 * n) := by
  induction n with
  | zero => rfl
  | succ n ih => simp [List.range_succ, ih, chunk, Nat.mul_succ, List.take_add]

/-- A counted chunk starts within the buffer (R137). -/
theorem chunk_start_lt {n i : Nat} (h : i < ceil16 n) : 16 * i < n := by
  unfold ceil16 at h
  omega

/-- The last chunk takes the remainder, or 16 bytes where there is none (R137). -/
theorem last_chunk_length {n : Nat} (h : n ≠ 0) :
    n - 16 * (ceil16 n - 1) = if n % 16 = 0 then 16 else n % 16 := by
  unfold ceil16
  split <;> omega

/-! ## The lines of the text -/

/-- The newline is no character of a record line's body (R113). -/
theorem not_recordChar_newline : ¬ RecordChar chLF := by
  unfold RecordChar
  decide

/-- A record line is one line (R113). -/
theorem count_newline_recordLine (k : BitVec 4) (a : Address) (p : List Byte) : (recordLine k a p).count chLF = 1 := by
  obtain ⟨body, hline, hbody⟩ := recordLine_alphabet k a p
  have hnone : body.count chLF = 0 := List.count_eq_zero.mpr fun hmem => not_recordChar_newline (hbody _ hmem)
  rw [hline, List.count_append, hnone]
  rfl

theorem count_newline_dataLines (b : List Byte) (n : Nat) : (dataLines b n).count chLF = n := by
  induction n with
  | zero => rfl
  | succ n ih => rw [dataLines_succ, List.count_append, ih, count_newline_recordLine]

/-- A line a data record, and three more: the header, the count record and the terminator (R136). -/
theorem count_newline_srecText (cfg : Config) (b : List Byte) :
    (srecText cfg b).count chLF = ceil16 b.length + 3 := by
  simp only [srecText, headerLine, List.count_append, count_newline_recordLine, count_newline_dataLines]
  omega

/-- The terminator is a constant line (R135). -/
theorem recordLine_terminator : recordLine 9#4 0x0000#16 [] = terminatorLine := rfl

/-! ## The checks of `SREC` -/

theorem check_srec (cfg : Config) (k : BitVec 4) (l : Nat) : check cfg 0b01#2 k l = checkSrec cfg l := rfl

section
variable {cfg : Config} {l : Nat} (k : BitVec 4)

/-- A text that does not fit fails the last check (R194). -/
theorem checkCapacity_of_not_fits {n : Nat} (h : ¬ Fits cfg n) : checkCapacity cfg n = some .allocationFailure := by
  unfold Fits at h
  push Not at h
  obtain ⟨c, hc, hlt⟩ := h
  simp [checkCapacity, hc, hlt]

/-- Too many records fail the first check (R131, R193). -/
theorem check_srec_of_count (h : 1048560 < l) : check cfg 0b01#2 k l = some .recordCountOverflow := by
  rw [check_srec, checkSrec, if_pos h]

/-- Addresses beyond 16 bits fail the second check (R131, R196). -/
theorem check_srec_of_address (h : 65536 < l) (hc : l ≤ 1048560) : check cfg 0b01#2 k l = some .addressRange := by
  rw [check_srec, checkSrec, if_neg (Nat.not_lt.mpr hc), if_pos h]

/-- A text that does not fit fails the third check (R131, R194). -/
theorem check_srec_of_capacity (h : l ≤ 65536) (hf : ¬ Fits cfg (srecLength l)) :
    check cfg 0b01#2 k l = some .allocationFailure := by
  rw [check_srec, checkSrec, if_neg (by omega), if_neg (Nat.not_lt.mpr h), checkCapacity_of_not_fits hf]

theorem check_srec_eq_none (h : l ≤ 65536) (hf : Fits cfg (srecLength l)) : check cfg 0b01#2 k l = none :=
  check_eq_none.mpr (.inr (.inl ⟨rfl, h, hf⟩))

end

/-! ## The block steps of `SREC` -/

section
variable {s : State}

/-- Once the chunk in progress is read, the staged bytes are its slice of `IN` (R52, R133). -/
theorem Inv.got_eq_inSlice_of_data (h : Inv s) (hp : s.phase = .data) (hr : inRe s = false) :
    s.got = inSlice s s.offset (min 16 s.remaining) := by
  rw [h.got_of_not_inRe hr]
  simp only [lineBase, need, hp, chunkLen]

/-- `OFFSET` of a chunk in progress fits the address field (R133). -/
theorem Inv.offset_lt_of_data (h : Inv s) (hp : s.phase = .data) (h0 : s.remaining ≠ 0) : s.offset < 65536 := by
  have hsum := h.split (.inl hp)
  obtain ⟨-, hlen⟩ := h.srecOp (.inr (.inl hp))
  omega

/-- `RECCNT` does not wrap where a data record is counted (R133). -/
theorem Inv.reccnt_countRecord (h : Inv s) (hp : s.phase = .data) (h0 : s.remaining ≠ 0) :
    (s.reccnt + 1#16).toNat = s.reccnt.toNat + 1 := by
  have hoff := h.offset_lt_of_data hp h0
  have hcnt := (h.count (.inl hp)).1
  unfold ceil16 at hcnt
  exact BitVec.toNat_add_of_lt (by simp only [BitVec.toNat_ofNat]; omega)

/-- The `DATA` step on a chunk that is read, written out: the chunk's line, and the three counters moved without wrap (R133). -/
theorem Inv.blockStep_data_eq (h : Inv s) (hp : s.phase = .data) (h0 : s.remaining ≠ 0) (hr : inRe s = false) :
    blockStep s = .next { s with
      out := s.out ++ recordLine 1#4 (BitVec.ofNat 16 s.offset) s.got
      bcnt := BitVec.ofNat 8 (s.got.length + 3)
      sum := recordSum (BitVec.ofNat 16 s.offset) s.got
      got := []
      offset := s.offset + min 16 s.remaining
      remaining := s.remaining - min 16 s.remaining
      reccnt := s.reccnt + 1#16 } := by
  rw [h.blockStep_data hp h0 hr, buildLine_eq_recordLine, ← wrapLen_advance h (h.split (.inl hp))]
  rfl

/-- The traversal registers once all `l` bytes are counted (R135). -/
def Traversed (l : Nat) (s : State) : Prop := s.offset = l ∧ s.remaining = 0 ∧ s.reccnt.toNat = ceil16 l

theorem Inv.traversed_of_term (h : Inv s) (hp : s.phase = .term) : Traversed s.len s := by
  have hsum := h.split (.inr (.inr (.inl hp)))
  obtain ⟨h0, hcnt⟩ := h.countAll (.inr hp)
  exact ⟨by omega, h0, hcnt⟩

end

/-! ## The transfers of `PHASE` -/

section
variable {s t : State}

/-- The transfers of the block's own step (R132 to R134, R145, R162). -/
theorem blockStep_phase (h : blockStep s = .next t) :
    t.phase = s.phase ∨ (s.phase = .hdr ∧ t.phase = .data) ∨ (s.phase = .data ∧ s.remaining = 0 ∧ t.phase = .cnt) ∨
    (s.phase = .cnt ∧ t.phase = .term) ∨
    (s.phase = .asm ∧ s.remaining = 0 ∧ t.phase = .done ∧ t.sent = t.out.length) := by
  rcases blockStep_cases h with rfl | ⟨-, -, -, -, rfl⟩ | ⟨hp, rfl⟩ | ⟨hp, h0, rfl⟩ | ⟨-, -, -, -, rfl⟩ | ⟨hp, rfl⟩ |
    ⟨-, -, rfl⟩ | ⟨hp, h0, hs, rfl⟩ | ⟨-, -, -, rfl⟩
  · exact .inl rfl
  · exact .inl (by simp)
  · exact .inr (.inl ⟨hp, rfl⟩)
  · exact .inr (.inr (.inl ⟨hp, h0, rfl⟩))
  · exact .inl (by simp)
  · exact .inr (.inr (.inr (.inl ⟨hp, rfl⟩)))
  · exact .inl (by simp)
  · exact .inr (.inr (.inr (.inr ⟨hp, h0, rfl, hs⟩)))
  · exact .inl rfl

/-- `Take` makes a transfer of `PHASE` only where it ends the wait for the sink (R63, log 7). -/
theorem takeChar_phase (h : takeChar s = .next t) :
    t.phase = s.phase ∨ (s.draining = true ∧ t.phase = .done ∧ t.sent = t.out.length) := by
  rcases takeChar_cases s with ⟨-, e⟩ | ⟨-, e⟩ <;> rw [e] at h <;> cases h
  · rcases finishIfDrained_cases s.transfer with ⟨hd, hs, e⟩ | ⟨-, e⟩ <;> rw [e]
    · exact .inr ⟨hd, rfl, hs⟩
    · exact .inl rfl
  · exact .inl rfl

/-- The phase an accepted command is in: `ERR` where a check fails, else the first of its operation (R184, R190). -/
theorem accept_phase (o : BitVec 2) (k : BitVec 4) (a : Address) (l : Nat) (s : State) :
    (check s.cfg o k l ≠ none ∧ (accept o k a l s).phase = .err) ∨
    (check s.cfg o k l = none ∧
      ((o = 0b00#2 ∧ (accept o k a l s).phase = .record) ∨ (o = 0b01#2 ∧ (accept o k a l s).phase = .hdr) ∨
        (o = 0b10#2 ∧ (accept o k a l s).phase = .asm))) := by
  rcases accept_cases o k a l s with ⟨c, hc, e⟩ | ⟨hc, e⟩ <;> rw [e, hc]
  · exact .inl ⟨nofun, rfl⟩
  · rcases check_eq_none.mp hc with ⟨rfl, -⟩ | ⟨rfl, -⟩ | ⟨rfl, -⟩
    · exact .inr ⟨rfl, .inl ⟨rfl, rfl⟩⟩
    · exact .inr ⟨rfl, .inr (.inl ⟨rfl, rfl⟩)⟩
    · exact .inr ⟨rfl, .inr (.inr ⟨rfl, rfl⟩)⟩

end

/-! ## The run of an `SREC` -/

section
variable {s t : State} {l : Nat}

/-- A transfer leaves the traversal registers, and so does the end of the wait (R63, R188). -/
theorem takeChar_keeps_traversed (h : takeChar s = .next t) (hs : Traversed l s) : Traversed l t := by
  rcases takeChar_cases s with ⟨-, e⟩ | ⟨-, e⟩ <;> rw [e] at h <;> cases h
  · simpa [Traversed] using hs
  · exact hs

/-- An `SREC` of `l` bytes that has traversed them once it is in `DONE` (R135). -/
def SrecRun (l : Nat) (s : State) : Prop := s.op = 0b01#2 ∧ s.len = l ∧ (s.phase = .done → Traversed l s)

/-- With a prompt host an `SREC` enters `DONE` from `TERM` only, where all of the buffer is counted (R135, R145). -/
theorem promptStep_keeps_srecRun (h : Inv s) (hb : s.busy = true) (ht : promptStep s = .next t) (hs : SrecRun l s) :
    SrecRun l t := by
  obtain ⟨hop, hlen, -⟩ := hs
  obtain ⟨hop', -, -, hlen', -⟩ := promptStep_sameCommand ht
  refine ⟨hop'.trans hop, hlen'.trans hlen, fun hdone => ?_⟩
  have hne : t.phase ≠ s.phase := fun e => phase_ne_done_of_busy hb (e ▸ hdone)
  rcases promptStep_cases ht with e | e | e
  · rcases takeChar_phase e with hp | ⟨hd, -⟩
    · exact absurd hp hne
    · rcases (h.drainIn hd).1 with hp | hp
      · simp [(h.recordOp hp).1] at hop
      · exact takeChar_keeps_traversed (s := s.popMove s.moves) e (hlen ▸ h.traversed_of_term hp)
  · exact absurd (supplyByte_phase (s := s.popMove s.moves) e) hne
  · rcases blockStep_phase e with hp | ⟨-, hp⟩ | ⟨-, -, hp⟩ | ⟨-, hp⟩ | ⟨hp, -⟩
    · exact absurd hp hne
    · simp [hp] at hdone
    · simp [hp] at hdone
    · simp [hp] at hdone
    · simp [h.asmOp hp] at hop

end

end Sys2Proof.Machine

/-! ## The statements about the sequencer -/

namespace Sys2Proof

open Machine

/-- Settles O18, check by check in their order. -/
theorem srecIsAcceptedByItsLength : Obligations.SrecIsAcceptedByItsLength := by
  intro k a l s h hw
  have hfault {c : FaultCause} (hc : check s.cfg 0b01#2 k l = some c) : TakesFault (.srec k a l) c.code s :=
    takesFault_of_check_some (i := .srec k a l) h hw hc
  refine ⟨fun hl => hfault (check_srec_of_count k hl), fun hl hc => hfault (check_srec_of_address k hl hc),
    fun hl hf => hfault (check_srec_of_capacity k hl hf), fun hl hf => ?_⟩
  have haccept : accept 0b01#2 k a l s = afterAccept 0b01#2 k a l .hdr 0 s :=
    accept_of_check_none (check_srec_eq_none k hl hf)
  exact haccept ▸ exec_of_ready (i := .srec k a l) h hw

/-- Settles O57: accept leaves `ceil16(LEN) + 4` block steps, `LEN` reads and a transfer a character, each move of a prompt
host makes one of them, and `DONE` is entered from `TERM`, where all of the buffer is counted. -/
theorem srecRunsToItsText : Obligations.SrecRunsToItsText := by
  intro k a l s h hw hl hfit
  obtain ⟨-, -, -, hexec⟩ := srecIsAcceptedByItsLength k a l s h hw
  have hwork : workLeft (afterAccept 0b01#2 k a l .hdr 0 s) = ceil16 l + 4 + l + (43 + 11 * ceil16 l + 2 * l) := rfl
  obtain ⟨u, hrun, hdone, ⟨-, -, htrav⟩, hout, hrx, hcode, hin⟩ :=
    promptRun_afterAccept (k := k) (a := a) (fun _ _ => promptStep_keeps_srecRun) h hw (check_srec_eq_none k hl hfit) rfl
      ⟨rfl, rfl, nofun⟩
  obtain ⟨hoff, hrem, hcnt⟩ := htrav hdone
  exact ⟨_, u, hexec hl hfit, hwork ▸ hrun, hdone, hcode, hout, hrx.trans hout.symm, hoff, hrem, hcnt, hin⟩

/-- Settles O31: each record is one line, and its length is two characters a byte and eleven more. -/
theorem srecTextLength : Obligations.SrecTextLength :=
  fun cfg b _ => ⟨srecText_length cfg b, count_newline_srecText cfg b⟩

/-- Settles O33: chunk `i` starts at `16 * i`, below `L` for each chunk counted, and the chunks cover the buffer. -/
theorem chunkLaw : Obligations.ChunkLaw := by
  intro b hb
  have hpos : b.length ≠ 0 := mt List.length_eq_zero_iff.mp hb
  have hlast := last_chunk_length hpos
  refine ⟨fun i hi => ?_, ?_, hlast, fun i hi => ?_, ?_⟩
  · have hnext := chunk_start_lt hi
    rw [chunk_length]
    omega
  · have hle : b.length - 16 * (ceil16 b.length - 1) ≤ 16 := by rw [hlast]; split <;> omega
    rw [chunk_length, Nat.min_eq_right hle]
  · have hstart := chunk_start_lt hi
    exact List.ne_nil_of_length_pos (by rw [chunk_length]; omega)
  · rw [flatMap_chunk_range, List.take_of_length_le (le_ceil16 b.length)]

/-- Settles O34: with no chunk only the header depends on the parameters. -/
theorem emptyInputTexts : Obligations.EmptyInputTexts :=
  fun cfg => ⟨rfl, srecText_length cfg [], rfl⟩

/-- Settles O36: the datapath's line on the tag is the closed form, and the tag has five bytes. -/
theorem headerStepEmitsTheTag : Obligations.HeaderStepEmitsTheTag := by
  intro s hr hp
  refine ⟨?_, recordLine_length _ _ _⟩
  rw [perform, afterReset_of_seen hr, blockStep_hdr hp, buildLine_eq_recordLine]
  rfl

/-- Settles O37: the staged bytes are the chunk, and within `LEN <= 65536` no counter wraps. -/
theorem dataStepEmitsOneChunk : Obligations.DataStepEmitsOneChunk := by
  intro s h hp
  have hperform : perform .blockStep s = blockStep s := afterReset_of_seen h.reset _
  rw [hperform]
  refine ⟨blockStep_data_exit hp, fun h0 hgot => ?_⟩
  have hr : inRe s = false := by simp [inRe, need, hp, chunkLen, hgot]
  have haddr : (BitVec.ofNat 16 s.offset).toNat = s.offset := 
    (BitVec.toNat_ofNat _ _).trans (Nat.mod_eq_of_lt (h.offset_lt_of_data hp h0))
  rw [← h.got_eq_inSlice_of_data hp hr]
  exact ⟨_, h.blockStep_data_eq hp h0 hr, rfl, haddr, rfl, Nat.sub_add_cancel (Nat.min_le_right 16 _),
    h.reccnt_countRecord hp h0, rfl⟩

/-- Settles O38: the invariant gives the count, and the datapath's line on no bytes is the closed form. -/
theorem countStepEmitsTheRecordCount : Obligations.CountStepEmitsTheRecordCount := by
  intro s h hp
  refine ⟨(h.countAll (.inl hp)).2, recordLine_length _ _ _, ?_⟩
  rw [perform, afterReset_of_seen h.reset, blockStep_cnt hp, buildLine_eq_recordLine]
  rfl

/-- Settles O39: the traversal ended before `TERM`, and the line of the terminator is a constant. -/
theorem terminatorStepEmitsTheConstantLine : Obligations.TerminatorStepEmitsTheConstantLine := by
  intro s h hp hd
  obtain ⟨hoff, hrem, hcnt⟩ := h.traversed_of_term hp
  refine ⟨hoff, hrem, hcnt, ?_⟩
  rw [perform, afterReset_of_seen h.reset, blockStep_term hp hd, buildLine_eq_recordLine, recordLine_terminator]
  rfl

/-- Settles O50, by the move the step makes: the accept step, the block's own step and the `Take` that ends a wait are the only
ones that write `PHASE`, beside `Reset`. -/
theorem phaseGraph : Obligations.PhaseGraph := by
  intro s t h ht
  obtain ⟨m, r, e, hm⟩ := step_eq_perform s
  rcases perform_cases (e ▸ ht) with ⟨rfl, -, e⟩ | ⟨c, -, -, -, rfl⟩ | ⟨c, rfl, -, -, hb, rfl⟩ | ⟨p, rfl, rfl⟩ |
    ⟨rfl, -, e⟩ | ⟨-, -, e⟩ | ⟨-, -, rfl⟩ | ⟨a, b, -, -, -, -, rfl⟩
  · -- the block's own step
    have hblock : BlockMoves s := by
      rcases hm with hm | ⟨hm, -, -⟩
      · exact .inr ⟨r, hm⟩
      · exact .inl hm
    rcases blockStep_phase e with hp | ⟨hp, hp'⟩ | ⟨hp, h0, hp'⟩ | ⟨hp, hp'⟩ | ⟨hp, h0, hp', hs⟩
    · exact .inl hp
    · exact .inr (.inr (.inr (.inl ⟨hp, hp', hblock⟩)))
    · exact .inr (.inr (.inr (.inr (.inl ⟨hp, h0, hp', hblock⟩))))
    · exact .inr (.inr (.inr (.inr (.inr (.inl ⟨hp, hp', hblock⟩)))))
    · exact .inr (.inr (.inr (.inr (.inr (.inr (.inl ⟨hp, h0, hp', hs, hblock⟩))))))
  · exact .inl rfl
  · -- an accepted `Start`
    obtain ⟨hop, hkind, haddr, hlen⟩ := decodeCommand_fields c
    rw [hop, hkind, haddr, hlen]
    exact .inr (.inr (.inl ⟨hb, c, r, by simpa using hm, accept_phase _ _ _ _ (s.popMove r)⟩))
  · exact .inr (.inl ⟨rfl, p, r, by simpa using hm⟩)
  · -- `Take`
    rcases takeChar_phase e with hp | ⟨hd, hp', hs⟩
    · exact .inl hp
    · exact .inr (.inr (.inr (.inr (.inr (.inr (.inr ⟨(h.drainIn hd).1, hd, hp', hs, r, by simpa using hm⟩))))))
  · exact .inl (supplyByte_phase (s := s.popMove r) e)
  · exact .inl rfl
  · exact .inl rfl

end Sys2Proof

/-! The listing of `ASM`: its lines, its accept step, its block step, and its run with a prompt host
(`42_assembly_listing.md`). -/

namespace Sys2Proof.Machine

/-! ## The lines of a listing -/

/-- No digit is the newline (R57, R77). -/
theorem newline_not_mem_hex2 (b : Byte) : chLF ∉ hex2 b :=
  fun h => not_recordChar_newline (recordChar_of_mem_hex2 h)

/-- The tokens of a line are digits, `$`, `,` and spaces (R82). -/
theorem newline_not_mem_asmTokens (g : List Byte) : chLF ∉ asmTokens g := by
  have htoken (b : Byte) : chLF ∉ chDollar :: hex2 b :=
    List.not_mem_cons_of_ne_of_not_mem (by decide) (newline_not_mem_hex2 b)
  have hsep : chLF ∉ [chComma, chSpace] := by decide
  induction g with
  | nil => exact List.not_mem_nil
  | cons b g ih =>
    cases g with
    | nil => exact htoken b
    | cons c g =>
      rw [asmTokens_cons_cons, List.mem_append, List.mem_append]
      rintro ((h | h) | h)
      · exact htoken b h
      · exact hsep h
      · exact ih h

/-- The prefix of R7 holds no newline. -/
theorem newline_not_mem_asmPrefix {cfg : Config} (h : cfg.prefixNoNewline = true) : chLF ∉ cfg.asmPrefix :=
  fun hmem => bne_iff_ne.mp (List.all_eq_true.mp h chLF hmem) rfl

section
variable {pre : Text} (hpre : chLF ∉ pre)
include hpre

/-- A listing line is one line (R163). -/
theorem count_newline_asmLine (g : List Byte) : (asmLine pre g).count chLF = 1 := by
  rw [asmLine, List.count_append, List.count_append, List.count_eq_zero.mpr hpre,
    List.count_eq_zero.mpr (newline_not_mem_asmTokens g)]
  rfl

theorem count_newline_asmLines (b : List Byte) (n : Nat) : (asmLines pre b n).count chLF = n := by
  induction n with
  | zero => rfl
  | succ n ih => rw [asmLines_succ, List.count_append, ih, count_newline_asmLine hpre]

end

/-! ## The check of `ASM` -/

section
variable {cfg : Config} {l : Nat} (k : BitVec 4)

/-- `ASM` has the capacity check only (R161). -/
theorem check_asm (cfg : Config) (l : Nat) : check cfg 0b10#2 k l = checkCapacity cfg (asmLength cfg l) := rfl

/-- A listing that does not fit fails it (R161, R194). -/
theorem check_asm_of_capacity (hf : ¬ Fits cfg (asmLength cfg l)) : check cfg 0b10#2 k l = some .allocationFailure := by
  rw [check_asm, checkCapacity_of_not_fits hf]

theorem check_asm_eq_none (hf : Fits cfg (asmLength cfg l)) : check cfg 0b10#2 k l = none := by
  rw [check_asm, checkCapacity_eq_none.mpr hf]

end

/-! ## The block step of `ASM` -/

section
variable {s t : State}

/-- The `ASM` step on a group that is read, written out: the group's line, and both counters moved without wrap (R162). -/
theorem Inv.blockStep_asm_eq (h : Inv s) (hp : s.phase = .asm) (h0 : s.remaining ≠ 0) (hr : inRe s = false) :
    blockStep s = .next { s with
      out := s.out ++ asmLine s.cfg.asmPrefix (inSlice s s.offset (min 16 s.remaining))
      got := []
      offset := s.offset + min 16 s.remaining
      remaining := s.remaining - min 16 s.remaining } := by
  have hgot : s.got = inSlice s s.offset (min 16 s.remaining) := by
    rw [h.got_of_not_inRe hr]
    simp only [lineBase, need, hp, chunkLen]
  rw [blockStep_asm hp h0 hr, ← hgot, ← wrapLen_advance h (h.split (.inr (.inr (.inr hp))))]
  rfl

/-! ## The run of an `ASM` -/

/-- In `BUSY` the operation code of `ASM` is that of its phase (R184). -/
theorem Inv.phase_eq_asm (h : Inv s) (hb : s.busy = true) (hop : s.op = 0b10#2) : s.phase = .asm := by
  have hrecord : ¬ s.phase = .record := fun e => by simp [(h.recordOp e).1] at hop
  have hsrec : ¬ s.phase.ofSrec := fun e => by simp [(h.srecOp e).1] at hop
  have hp := (busy_iff s).mp hb
  unfold Phase.ofSrec at hsrec
  tauto

/-- With a prompt host an `ASM` counts no record, and stays in its phase or leaves it by its exit, with the traversal
registers as they are (R162). -/
theorem promptStep_of_asm (h : Inv s) (hp : s.phase = .asm) (ht : promptStep s = .next t) :
    t.reccnt = s.reccnt ∧
      (t.phase = .asm ∨ (s.remaining = 0 ∧ t.offset = s.offset ∧ t.remaining = s.remaining)) := by
  rcases promptStep_cases ht with e | e | e
  · have hd : s.draining = false := h.draining_eq_false (by simp [hp]) (by simp [hp])
    rcases takeChar_cases (s.popMove s.moves) with ⟨-, e'⟩ | ⟨-, e'⟩ <;> rw [e'] at e <;> cases e
    · rcases finishIfDrained_cases (s.popMove s.moves).transfer with ⟨hd', -, -⟩ | ⟨-, e⟩
      · simp [hd] at hd'
      · rw [e]
        exact ⟨rfl, .inl hp⟩
    · exact ⟨rfl, .inl hp⟩
  · rcases supplyByte_cases (s.popMove s.moves) with ⟨-, -, e'⟩ | ⟨-, -, e'⟩ | ⟨-, e'⟩ <;> rw [e'] at e <;> cases e <;>
      exact ⟨rfl, .inl hp⟩
  · have hstep := blockStep_cases e
    simp only [State.popMove_phase, hp, reduceCtorEq, false_and, false_or, true_and] at hstep
    rcases hstep with rfl | ⟨h0, -, rfl⟩ | ⟨-, -, rfl⟩
    · exact ⟨rfl, .inl hp⟩
    · exact ⟨rfl, .inr ⟨h0, rfl, rfl⟩⟩ -- the exit
    · exact ⟨rfl, .inl hp⟩ -- a line

/-- An `ASM` of `l` bytes that has counted no record, and has rendered all bytes once it is in `DONE` (R162). -/
def AsmRun (l : Nat) (s : State) : Prop :=
  s.op = 0b10#2 ∧ s.len = l ∧ s.reccnt = 0 ∧ (s.phase = .done → s.offset = l ∧ s.remaining = 0)

/-- With a prompt host an `ASM` enters `DONE` by its exit only, where nothing remains (R162). -/
theorem promptStep_keeps_asmRun {l : Nat} (h : Inv s) (hb : s.busy = true) (ht : promptStep s = .next t)
    (hs : AsmRun l s) : AsmRun l t := by
  obtain ⟨hop, hlen, hcnt, -⟩ := hs
  obtain ⟨hop', -, -, hlen', -⟩ := promptStep_sameCommand ht
  have hp := h.phase_eq_asm hb hop
  obtain ⟨hcnt', hend⟩ := promptStep_of_asm h hp ht
  refine ⟨hop'.trans hop, hlen'.trans hlen, hcnt'.trans hcnt, fun hdone => ?_⟩
  rcases hend with hp' | ⟨h0, hoff, hrem⟩
  · simp [hp'] at hdone
  · have hsum := h.split (.inr (.inr (.inr hp)))
    omega

end

end Sys2Proof.Machine

/-! ## The statements about the listing -/

namespace Sys2Proof

open Machine

/-- Settles O19: the one check decides. -/
theorem asmIsAcceptedIfItFits : Obligations.AsmIsAcceptedIfItFits := by
  intro k a l s h hw
  refine ⟨fun hf => ?_, fun hf => ?_⟩
  · exact takesFault_of_check_some (i := .asm k a l) h hw (check_asm_of_capacity k hf)
  · have haccept : accept 0b10#2 k a l s = afterAccept 0b10#2 k a l .asm 0 s :=
      accept_of_check_none (check_asm_eq_none k hf)
    exact haccept ▸ exec_of_ready (i := .asm k a l) h hw

/-- Settles O58: accept leaves `ceil16(LEN) + 1` block steps, `LEN` reads and a transfer a character, each move of a prompt
host makes one of them, and `DONE` is entered by the exit of `ASM`, where nothing remains. -/
theorem asmRunsToItsListing : Obligations.AsmRunsToItsListing := by
  intro k a l s h hw hfit
  obtain ⟨-, hexec⟩ := asmIsAcceptedIfItFits k a l s h hw
  have hwork : workLeft (afterAccept 0b10#2 k a l .asm 0 s) = ceil16 l + 1 + l +
      (ceil16 l * s.cfg.asmPrefix.length + 5 * l - ceil16 l) := rfl
  obtain ⟨u, hrun, hdone, ⟨-, -, hcnt, hend⟩, hout, hrx, hcode, hin⟩ :=
    promptRun_afterAccept (k := k) (a := a) (fun _ _ => promptStep_keeps_asmRun) h hw (check_asm_eq_none k hfit) rfl
      ⟨rfl, rfl, rfl, nofun⟩
  obtain ⟨hoff, hrem⟩ := hend hdone
  exact ⟨_, u, hexec hfit, hwork ▸ hrun, hdone, hcode, hout, hrx.trans hout.symm, hoff, hrem, hcnt, hin⟩

/-- Settles O32: each line ends in its one newline, the tokens holding none. -/
theorem asmTextLength : Obligations.AsmTextLength :=
  fun cfg b => ⟨asmText_length cfg b, fun h => count_newline_asmLines (newline_not_mem_asmPrefix h) b _⟩

/-- Settles O40: the staged bytes are the group, and `OFFSET` stays within `LEN`. -/
theorem asmStepEmitsOneGroup : Obligations.AsmStepEmitsOneGroup := by
  intro s h hp
  have hperform : perform .blockStep s = blockStep s := afterReset_of_seen h.reset _
  rw [hperform]
  refine ⟨blockStep_asm_exit hp, fun h0 hgot => ?_⟩
  have hr : inRe s = false := by simp [inRe, need, hp, chunkLen, hgot]
  exact ⟨_, h.blockStep_asm_eq hp h0 hr, rfl, rfl, Nat.sub_add_cancel (Nat.min_le_right 16 _), rfl⟩

end Sys2Proof

/-! The moves and the faults: commands taken and ignored, the checks at accept with the fault each reports, the transfers of
the output stream, and what stops a move (`60_exceptions.md`). -/

namespace Sys2Proof.Machine

/-! ## A command as the next move -/

section
variable {s : State}

/-- A `Start` at the head of the list is what the step runs (R181 a, log 2). -/
theorem step_of_start {c : Command} {more : List Move} (h : s.moves = .start c :: more) :
    step s = exec (decodeCommand c) (s.popMove more) := by
  rw [step, h]
  rfl

/-- With no move listed the step is the block's own (R182, log 2). -/
theorem step_of_silent (h : s.moves = []) (hr : s.resetSeen = true) : step s = blockStep (s.popMove []) := by
  rw [step, h]
  exact afterReset_of_seen hr _

/-- The table's word decodes through the values of the ports (log 13). -/
theorem decodeWord_eq_some {w nbits v : Nat} {i : Instr} (h : decodeWord w nbits v = some i) :
    ∃ c rest, Command.ofBytes w (tableImage w nbits v) = .ok (c, rest) ∧ decodeCommand c = i := by
  unfold decodeWord at h
  cases hc : Command.ofBytes w (tableImage w nbits v) with
  | error e => simp [decode_of_error hc] at h
  | ok r => exact ⟨r.1, r.2, rfl, by simpa [decode_of_ok hc] using h⟩

/-- A word of the table is placed as the `Start` of the values it shows on the ports (log 2). -/
theorem withFetchWord_of_ok {nbits v : Nat} {c : Command} {rest : List Byte}
    (h : Command.ofBytes s.cfg.lenW (tableImage s.cfg.lenW nbits v) = .ok (c, rest)) :
    s.withFetchWord nbits v = { s with moves := .start c :: s.moves } := by
  simp only [State.withFetchWord, h]

/-! ## A command outside and within `BUSY` -/

variable {i : Instr}

/-- While `BUSY` a command the port carries is ignored (R186). -/
theorem exec_of_busy (hr : s.resetSeen = true) (hb : s.busy = true) (hl : i.len < 2 ^ s.cfg.lenW) : exec i s = .next s := by
  simp [exec_eq_startCommand, startCommand, hr, hb, lenFits_iff.mpr hl]

/-- After the first reset a command the port carries answers, `BUSY` or not (R184, R186). -/
theorem exec_answers (hr : s.resetSeen = true) (hl : i.len < 2 ^ s.cfg.lenW) : ∃ t, exec i s = .next t := by
  cases hb : s.busy with
  | true => exact ⟨_, exec_of_busy hr hb hl⟩
  | false => exact ⟨_, exec_of_ready ⟨hr, hb⟩ hl⟩

/-- A command that answers is ignored or accepted (R184, R186). -/
theorem exec_cases {t : State} (h : exec i s = .next t) : t = s ∨ t = accept i.op i.kind i.addr i.len s := by
  rw [exec_eq_startCommand] at h
  rcases startCommand_cases i.op i.kind i.addr i.len s with ⟨-, e⟩ | ⟨-, -, e⟩ | ⟨-, -, -, e⟩ | ⟨-, -, -, e⟩ <;>
    rw [e] at h <;> cases h
  · exact .inl rfl
  · exact .inr rfl

end

/-- What no command writes (R51, R66, R184; log 14). -/
def SameFrame (s t : State) : Prop :=
  t.bcnt = s.bcnt ∧ t.sum = s.sum ∧ t.cfg = s.cfg ∧ t.input = s.input ∧
    t.moves = s.moves ∧ t.moveCount = s.moveCount ∧ t.resetSeen = s.resetSeen

theorem accept_sameFrame (o : BitVec 2) (k : BitVec 4) (a : Address) (l : Nat) (s : State) :
    SameFrame s (accept o k a l s) := by
  rcases accept_cases o k a l s with ⟨c, -, e⟩ | ⟨-, e⟩ <;> rw [e] <;> exact ⟨rfl, rfl, rfl, rfl, rfl, rfl, rfl⟩

/-! ## The fault each check reports -/

section
variable {cfg : Config} {o : BitVec 2} {k : BitVec 4} {l n : Nat} {c : FaultCause}

/-- The condition of each fault, no earlier check applying (R191 to R197). -/
def Raises (cfg : Config) (o : BitVec 2) (k : BitVec 4) (l : Nat) : FaultCause → Prop
  | .illegalOperation => o = 0b11#2
  | .unsupportedRecordKind => o = 0b00#2 ∧ kindLegal k = false
  | .payloadLengthRange => o = 0b00#2 ∧ kindLegal k = true ∧ maxPayload k < l
  | .recordCountOverflow => o = 0b01#2 ∧ 1048560 < l
  | .addressRange => o = 0b01#2 ∧ 65536 < l ∧ l ≤ 1048560
  | .allocationFailure =>
    (o = 0b00#2 ∧ kindLegal k = true ∧ l ≤ maxPayload k ∧ ¬ Fits cfg (recordLength l)) ∨
    (o = 0b01#2 ∧ l ≤ 65536 ∧ ¬ Fits cfg (srecLength l)) ∨
    (o = 0b10#2 ∧ ¬ Fits cfg (asmLength cfg l))

/-- A text that does not fit is longer than the finite `OUT_CAP` (R194). -/
theorem not_fits_iff : ¬ Fits cfg n ↔ ∃ m, cfg.outCap = some m ∧ m < n := by simp [Fits]

/-- The capacity check reports `AllocationFailure` and nothing else (R194). -/
theorem checkCapacity_eq_some : checkCapacity cfg n = some c ↔ c = .allocationFailure ∧ ¬ Fits cfg n := by
  by_cases h : Fits cfg n
  · simp [checkCapacity_eq_none.mpr h, h]
  · simp [checkCapacity_of_not_fits h, h, eq_comm]

/-- The checks of `REC`, the kind before the length (R192, R195). -/
theorem checkRecord_eq_some : checkRecord cfg k l = some c ↔ Raises cfg 0b00#2 k l c := by
  unfold checkRecord
  split
  · next hk =>
    split
    · next hl => rw [checkCapacity_eq_some]; cases c <;> simp [Raises, hk, lenLegal_iff.mp hl]
    · next hl =>
      have hlong : maxPayload k < l := by simpa [lenLegal_iff] using hl
      cases c <;> simp [Raises, hk, hlong, Nat.not_le.mpr hlong]
  · next hk => cases c <;> simp [Raises, hk]

/-- The checks of `SREC`, the count before the address (R193, R196). -/
theorem checkSrec_eq_some : checkSrec cfg l = some c ↔ Raises cfg 0b01#2 k l c := by
  unfold checkSrec
  split
  · next hcnt =>
    have hlong : ¬ l ≤ 65536 := by omega
    cases c <;> simp [Raises, hcnt, hlong]
  · next hcnt =>
    split
    · next haddr =>
      have hle : l ≤ 1048560 := Nat.le_of_not_lt hcnt
      cases c <;> simp [Raises, haddr, hcnt, hle, Nat.not_le.mpr haddr]
    · next haddr => rw [checkCapacity_eq_some]; cases c <;> simp [Raises, haddr, hcnt, Nat.le_of_not_lt haddr]

/-- The check reports a fault exactly under the condition of that fault (R191). -/
theorem check_eq_some : check cfg o k l = some c ↔ Raises cfg o k l c := by
  rcases op_cases o with rfl | rfl | rfl | rfl
  · exact checkRecord_eq_some
  · exact checkSrec_eq_some
  · rw [check_asm, checkCapacity_eq_some]
    cases c <;> simp [Raises]
  · cases c <;> simp [check, Raises]

/-- The codes tell the faults apart (R189). -/
theorem FaultCause.code_injective : Function.Injective FaultCause.code := by
  intro c d
  cases c <;> cases d <;> simp [FaultCause.code]

theorem FaultCause.code_ne_seven (c : FaultCause) : c.code ≠ 7 := by cases c <;> decide

end

section
variable {s : State}

/-- After accept the code of a fault stands exactly under the condition of that fault (R190, R191). -/
theorem accept_errcode_eq (o : BitVec 2) (k : BitVec 4) (a : Address) (l : Nat) (c : FaultCause) :
    (accept o k a l s).errcode = c.code ↔ Raises s.cfg o k l c := by
  rw [← check_eq_some]
  rcases accept_cases o k a l s with ⟨d, hd, e⟩ | ⟨hn, e⟩ <;> rw [e]
  · simp [hd, FaultCause.code_injective.eq_iff]
  · simpa [hn] using c.code_ne_zero.symm

theorem accept_errcode_ne_seven (o : BitVec 2) (k : BitVec 4) (a : Address) (l : Nat) : (accept o k a l s).errcode ≠ 7 := by
  rcases accept_cases o k a l s with ⟨c, -, e⟩ | ⟨-, e⟩ <;> rw [e]
  · exact c.code_ne_seven
  · rw [rearm_errcode]; decide

/-- A command starts with no text, whether it takes a fault or not (R184). -/
theorem accept_out (o : BitVec 2) (k : BitVec 4) (a : Address) (l : Nat) : (accept o k a l s).out = [] := by
  rcases accept_cases o k a l s with ⟨c, -, e⟩ | ⟨-, e⟩ <;> rw [e] <;> rfl

end

/-! The kinds and lengths of R104, written out. -/

section
variable {k : BitVec 4} {l : Nat}

theorem kindLegal_iff : kindLegal k = true ↔ k = 0 ∨ k = 1 ∨ k = 5 ∨ k = 9 := by simp [kindLegal, or_assoc]

theorem payload_le_iff : kindLegal k = true ∧ l ≤ maxPayload k ↔
    (k = 0 ∧ l ≤ 252) ∨ (k = 1 ∧ l ≤ 16) ∨ ((k = 5 ∨ k = 9) ∧ l = 0) := by
  by_cases hk : k = 0 ∨ k = 1 ∨ k = 5 ∨ k = 9
  · rcases hk with rfl | rfl | rfl | rfl <;> simp [kindLegal, maxPayload]
  · simp only [kindLegal_iff, hk]; tauto

theorem lt_payload_iff : kindLegal k = true ∧ maxPayload k < l ↔
    (k = 0 ∧ 252 < l) ∨ (k = 1 ∧ 16 < l) ∨ ((k = 5 ∨ k = 9) ∧ l ≠ 0) := by
  by_cases hk : k = 0 ∨ k = 1 ∨ k = 5 ∨ k = 9
  · rcases hk with rfl | rfl | rfl | rfl <;> simp [kindLegal, maxPayload, Nat.pos_iff_ne_zero]
  · simp only [kindLegal_iff, hk]; tauto

end

/-! ## The output stream -/

section
variable {s : State}

/-- While a character is offered, `out_last` is 1 where it ends `OUT` and the last line stands there (R188). -/
theorem outLast_iff (h : s.sent < s.out.length) :
    (outPorts s).outLast = true ↔ lastLineOut s = true ∧ s.sent + 1 = s.out.length := by
  simp [outPorts, outValid, h]

/-- The character offered is `OUT[SENT]` (R188). -/
theorem outChar_eq (h : s.sent < s.out.length) : some (outPorts s).outChar = s.out[s.sent]? := by
  simp [outPorts, outValid, h]

/-- A text is no shorter for more data records (R136). -/
theorem dataLines_length_mono (b : List Byte) {n m : Nat} (h : n ≤ m) :
    (dataLines b n).length ≤ (dataLines b m).length := by
  rw [dataLines_length, dataLines_length]
  omega

/-- A listing is longer than its first lines where a line is left (R164). -/
theorem asmLines_length_lt (cfg : Config) {b : List Byte} {n : Nat} (hn : n < ceil16 b.length) :
    (asmLines cfg.asmPrefix b n).length < (asmText cfg b).length := by
  have hle := asmLines_length_le cfg (Nat.succ_le_of_lt hn)
  have hline : 0 < (asmLine cfg.asmPrefix (chunk b n)).length := by simp [asmLine]
  rw [asmLines_succ, List.length_append] at hle
  rw [asmText_length]
  omega

/-- Until its last line is in `OUT` an operation's text is not complete (R110, R136, R164). -/
theorem out_length_lt (h : Inv s) (hx : TextInv s) (hb : s.busy = true) (hl : lastLineOut s = false) :
    s.out.length < (finalText s).length := by
  have hnot : ¬ (s.draining = true ∨ (s.phase = .asm ∧ s.remaining = 0)) := by rw [← lastLineOut_iff, hl]; decide
  obtain ⟨hd, hrem⟩ : s.draining = false ∧ (s.phase = .asm → s.remaining ≠ 0) := by simpa using hnot
  unfold TextInv at hx
  rcases (busy_iff s).mp hb with e | e | e | e | e | e <;> simp only [e, hd] at hx
  · simp [hx, finalText, h.recordOp e]
  · simp [hx, finalText, h.srecOp (.inl e), srecText]
  · have hle : ceil16 s.offset ≤ ceil16 s.len := ceil16_mono (by have := h.split (.inl e); omega)
    have hlines := dataLines_length_mono (buffer s) hle
    simp [hx, finalText, h.srecOp (.inr (.inl e)), srecText, (h.count (.inl e)).1]
    omega
  · simp [hx, finalText, h.srecOp (.inr (.inr (.inl e))), srecText]
  · simp [hx, finalText, h.srecOp (.inr (.inr (.inr e))), srecText]
  · have h0 := hrem e
    have hoff := h.offset_eq (.inr e) h0
    have hlen := h.split (.inr (.inr (.inr e)))
    have hlt : ceil16 s.offset < ceil16 s.len := by unfold ceil16; omega
    rw [hx, finalText, h.asmOp e]
    exact asmLines_length_lt s.cfg (by rwa [buffer_length])

/-- One transfer, written out: the character is the sink's, and the last one of a wait ends the operation (R63, R188). -/
theorem takeChar_of_getElem? {c : Character} (hc : s.out[s.sent]? = some c) :
    takeChar s = .next (if s.draining = true ∧ s.sent + 1 = s.out.length then
      { s with sent := s.sent + 1, rx := s.rx ++ [c], phase := .done, draining := false }
      else { s with sent := s.sent + 1, rx := s.rx ++ [c] }) := by
  have hlt : s.sent < s.out.length := (List.getElem?_eq_some_iff.mp hc).1
  have htransfer : s.transfer = { s with sent := s.sent + 1, rx := s.rx ++ [c] } := by simp [State.transfer, hc]
  rw [takeChar, if_pos hlt]
  rcases finishIfDrained_cases s.transfer with ⟨hd, hs, e⟩ | ⟨hn, e⟩ <;> rw [e]
  · rw [if_pos ⟨hd, hs⟩, htransfer]
  · have hgoes : ¬ (s.draining = true ∧ s.sent + 1 = s.out.length) := hn
    rw [if_neg hgoes, htransfer]

end

/-! ## What a block step waits for, and that it never stops -/

section
variable {s : State}

/-- Outside `BUSY` the block has no step (R182). -/
theorem blockStep_of_not_busy (hb : s.busy = false) : blockStep s = .next s := by
  rcases (not_busy_iff s).mp hb with e | e | e <;> simp [blockStep, e]

/-- While a byte is requested the block waits for the source (R188, R219). -/
theorem blockStep_of_inRe (hr : inRe s = true) : blockStep s = .next s := by
  have hgot : s.got.length < need s := by simpa [inRe] using hr
  have hneed : need s ≠ 0 := Nat.ne_zero_of_lt hgot
  unfold need at hneed
  cases hp : s.phase <;> simp only [hp] at hneed
  case record => simp [blockStep, hp, stepRecord, hr]
  case data | asm =>
    have h0 : s.remaining ≠ 0 := by rintro e; simp [chunkLen, e] at hneed
    simp [blockStep, hp, stepData, stepAsm, h0, hr]
  all_goals exact absurd rfl hneed

/-- Once the last line of `REC` or `SREC` is in `OUT` the block waits for the sink (R63, R219). -/
theorem blockStep_of_draining (hp : s.phase = .record ∨ s.phase = .term) (hd : s.draining = true) :
    blockStep s = .next s := by
  rcases hp with e | e <;> simp [blockStep, e, stepRecord, stepTerm, hd]

/-- With nothing left to render, `ASM` waits for the sink (R162, R219). -/
theorem blockStep_of_asm_wait (hp : s.phase = .asm) (h0 : s.remaining = 0) (hs : s.sent ≠ s.out.length) :
    blockStep s = .next s := by
  simp [blockStep, hp, stepAsm, h0, hs]

/-- The block's own step answers in every phase: it waits or makes what its phase names (R203). -/
theorem Inv.blockStep_answers (h : Inv s) : ∃ t, blockStep s = .next t := by
  cases hr : inRe s with
  | true => exact ⟨_, blockStep_of_inRe hr⟩
  | false =>
    cases hp : s.phase with
    | idle | done | err => exact ⟨_, blockStep_of_not_busy ((not_busy_iff s).mpr (by simp [hp]))⟩
    | record =>
      cases hd : s.draining with
      | true => exact ⟨_, blockStep_of_draining (.inl hp) hd⟩
      | false => exact ⟨_, h.blockStep_record hp hd hr⟩
    | term =>
      cases hd : s.draining with
      | true => exact ⟨_, blockStep_of_draining (.inr hp) hd⟩
      | false => exact ⟨_, blockStep_term hp hd⟩
    | hdr => exact ⟨_, blockStep_hdr hp⟩
    | cnt => exact ⟨_, blockStep_cnt hp⟩
    | data =>
      by_cases h0 : s.remaining = 0
      · exact ⟨_, blockStep_data_exit hp h0⟩
      · exact ⟨_, h.blockStep_data hp h0 hr⟩
    | asm =>
      by_cases h0 : s.remaining = 0
      · by_cases hs : s.sent = s.out.length
        · exact ⟨_, blockStep_asm_exit hp h0 hs⟩
        · exact ⟨_, blockStep_of_asm_wait hp h0 hs⟩
      · exact ⟨_, blockStep_asm hp h0 hr⟩

theorem takeChar_answers (s : State) : ∃ t, takeChar s = .next t := by
  rcases takeChar_cases s with ⟨-, e⟩ | ⟨-, e⟩ <;> exact ⟨_, e⟩

/-- Every requested byte is one of `IN[0 .. LEN-1]`, so that a read is never refused (R52). -/
theorem Inv.supplyByte_answers (h : Inv s) : ∃ t, supplyByte s = .next t := by
  cases hr : inRe s with
  | true => exact ⟨_, h.supplyByte_of_inRe hr⟩
  | false => exact ⟨_, supplyByte_of_not_inRe hr⟩

/-- While `BUSY` the host's change of `IN` is refused (U6, log 11). -/
theorem setInput_of_busy (a : Nat) (b : Byte) (hb : s.busy = true) : setInput a b s = .refused .inputChangedWhileBusy := by
  simp [setInput, hb]

/-- Outside `BUSY` the host writes a byte of `IN` at any offset of `LEN_W` bits (R181 f). -/
theorem setInput_of_not_busy {a : Nat} (b : Byte) (hb : s.busy = false) (ha : a < 2 ^ s.cfg.lenW) :
    setInput a b s = .next { s with input := Memory.write s.input a b } := by
  simp [setInput, hb, lenFits_iff.mpr ha]

end

end Sys2Proof.Machine

/-! ## The statements about the moves and the faults -/

namespace Sys2Proof

open Machine

/-- Settles O12: the text is complete exactly once its last line is in `OUT`. -/
theorem lastMarksTheFinalCharacter : Obligations.LastMarksTheFinalCharacter := by
  intro s h hx hb hlt
  refine ⟨decide_eq_true hlt, outChar_eq hlt, ?_⟩
  rw [outLast_iff hlt]
  cases hl : lastLineOut s with
  | true => simp [out_eq_finalText h hx hl]
  | false =>
    have hshort := out_length_lt h hx hb hl
    simp only [Bool.false_eq_true, false_and, false_iff]
    omega

/-- Settles O13, by the check. -/
theorem acceptStepOfEveryCommand : Obligations.AcceptStepOfEveryCommand := by
  intro i s h hw
  rw [wf_eq_lenFits, lenFits_iff] at hw
  rw [exec_of_ready h hw]
  exact ⟨fun c hc => by rw [accept_of_check_some hc], fun hc => by rw [accept_of_check_none hc]; rfl⟩

/-- Settles O14: each code stands under the condition of its fault, the kinds and lengths of R104 written out. -/
theorem acceptReportsTheFirstFault : Obligations.AcceptReportsTheFirstFault := by
  intro i s h hw
  rw [wf_eq_lenFits, lenFits_iff] at hw
  have hcode := accept_errcode_eq (s := s) i.op i.kind i.addr i.len
  refine ⟨_, exec_of_ready h hw, hcode .illegalOperation, ?_, ?_, hcode .recordCountOverflow, hcode .addressRange, ?_,
    accept_errcode_ne_seven _ _ _ _, (inv_accept h.1 hw _ _ _).errIff, accept_out _ _ _ _⟩
  · exact (hcode .unsupportedRecordKind).trans (by rw [Raises, ← kindLegal_iff, Bool.not_eq_true])
  · exact (hcode .payloadLengthRange).trans (by rw [Raises, lt_payload_iff])
  · refine (hcode .allocationFailure).trans ?_
    simp only [Raises, not_fits_iff, ← payload_le_iff]
    cases s.cfg.outCap <;> simp [recordLength, srecLength, asmLength, and_assoc]

/-- Settles O21: a command that answers is ignored or accepted, and accept writes nothing else. -/
theorem commandFrame : Obligations.CommandFrame := by
  intro i s t h
  rcases exec_cases h with rfl | rfl
  · exact ⟨rfl, rfl, rfl, fun _ => rfl, rfl, rfl, rfl⟩
  · obtain ⟨hbcnt, hsum, hcfg, hin, hrest⟩ := accept_sameFrame i.op i.kind i.addr i.len s
    exact ⟨hbcnt, hsum, hcfg, fun x => by rw [hin], hrest⟩

/-- Settles O42: the transfer written out, and `SENT` has nothing to offer at the end of `OUT`. -/
theorem takeHandsOverOneCharacter : Obligations.TakeHandsOverOneCharacter := by
  intro s h
  have hperform : perform .take s = takeChar s := afterReset_of_seen h.reset _
  rw [hperform]
  exact ⟨fun c hc => takeChar_of_getElem? hc, fun hs => if_neg hs.not_lt⟩

/-- Settles O44: the write is read back, and keeps the canonical form. -/
theorem hostOwnsTheInput : Obligations.HostOwnsTheInput := by
  intro s a b hr
  have hperform : perform (.setInput a b) s = setInput a b s := afterReset_of_seen hr _
  rw [hperform]
  exact ⟨fun hb ha hwf => ⟨_, setInput_of_not_busy b hb ha, Memory.read_write hwf a b, Memory.wf_write hwf ha b, rfl⟩,
    setInput_of_busy a b, afterReset_of_seen hr _⟩

/-- Settles O54, by the move. -/
theorem noMoveStopsTheMachine : Obligations.NoMoveStopsTheMachine := by
  intro m s h
  have hseen (o) : afterReset s o = o := afterReset_of_seen h.reset o
  cases m with
  | blockStep => exact .inl (by simpa only [perform, hseen] using h.blockStep_answers)
  | start c =>
    rcases Nat.lt_or_ge c.len (2 ^ s.cfg.lenW) with hl | hl
    · obtain ⟨-, -, -, hlen⟩ := decodeCommand_fields c
      exact .inl (exec_answers h.reset (hlen ▸ hl))
    · exact .inr (.inr (.inl ⟨c, rfl, hl⟩))
  | rst p => exact .inl ⟨_, rfl⟩
  | take => exact .inl (by simpa only [perform, hseen] using takeChar_answers s)
  | supply => exact .inl (by simpa only [perform, hseen] using h.supplyByte_answers)
  | readStatus => exact .inl ⟨s, hseen _⟩
  | setInput a b =>
    cases hb : s.busy with
    | true => exact .inr (.inl ⟨rfl, a, b, rfl⟩)
    | false =>
      rcases Nat.lt_or_ge a (2 ^ s.cfg.lenW) with ha | ha
      · exact .inl ⟨_, (hseen _).trans (setInput_of_not_busy b hb ha)⟩
      · exact .inr (.inr (.inr ⟨a, b, rfl, ha⟩))

/-- Settles O6: the image is read as the values on the ports, which the decoder and the placed `Start` share. -/
theorem stepRunsThePresentedCommand : Obligations.StepRunsThePresentedCommand := by
  refine ⟨fun s bs c rest rest' i more hc hd hm => ?_, fun s nbits v i hv => ?_, fun _ _ => rfl,
    fun s hm hr => ?_⟩
  · rw [decode_of_ok hc] at hd
    cases hd
    exact step_of_start hm
  · obtain ⟨c, rest, hc, rfl⟩ := decodeWord_eq_some hv
    rw [withFetchWord_of_ok hc]
    exact step_of_start rfl
  · rw [step_of_silent hm hr, State.popMove, ← hm]

/-- Settles O17: the operation code is looked at before every other field. -/
theorem reservedOperationTakesItsFault : Obligations.ReservedOperationTakesItsFault := by
  intro k a l s h hl
  have hc : check s.cfg 0b11#2 k l = some .illegalOperation := rfl
  have haccept : accept 0b11#2 k a l s = afterAccept 0b11#2 k a l .err 6 s := accept_of_check_some hc
  exact ⟨haccept ▸ exec_of_ready (i := .op3 k a l) h hl, takesFault_of_check_some (i := .op3 k a l) h hl hc⟩

/-- Settles O20. -/
theorem startWhileBusyIsIgnored : Obligations.StartWhileBusyIsIgnored := by
  intro i s hr hb hw
  rw [wf_eq_lenFits, lenFits_iff] at hw
  exact exec_of_busy hr hb hw

end Sys2Proof

/-! Reset and hazards: no move before the first reset, what the accept step forgets, what the block waits for, and progress
(`70_reset_and_hazards.md`). -/

namespace Sys2Proof.Machine

/-! ## Before the first reset -/

section
variable {s : State}

/-- Before the first reset the guard of a move is closed (R210). -/
theorem afterReset_of_not_seen (h : s.resetSeen = false) (o : Host.Outcome State Fault Refusal) :
    afterReset s o = .refused .beforeFirstReset := by simp [afterReset, h]

/-- Before the first reset every command is refused (R210). -/
theorem exec_of_not_seen (h : s.resetSeen = false) (i : Instr) : exec i s = .refused .beforeFirstReset := by
  simp [exec_eq_startCommand, startCommand, h]

end

/-! ## What the accept step forgets -/

section
variable {s s' : State}

/-- `s` with the scratch registers, `IN` and the moves of `s'`, which are all that an accept step keeps beside the
parameters (R51, R184; log 14). -/
def State.withKept (s s' : State) : State :=
  { s with bcnt := s'.bcnt, sum := s'.sum, input := s'.input, moves := s'.moves, moveCount := s'.moveCount }

/-- Every field is written, a parameter, or kept by the accept step (R184). -/
theorem afterAccept_eq_withKept (hc : s'.cfg = s.cfg) (hr : s'.resetSeen = s.resetSeen) (o : BitVec 2) (k : BitVec 4)
    (a : Address) (l : Nat) (p : Phase) (e : BitVec 3) :
    afterAccept o k a l p e s' = (afterAccept o k a l p e s).withKept s' := by
  simp [afterAccept, State.withKept, hc, hr]

/-- The checks see the parameters and the command only, so both states take the same way out of the accept step (R191, R221). -/
theorem accept_eq_withKept (hc : s'.cfg = s.cfg) (hr : s'.resetSeen = s.resetSeen) (o : BitVec 2) (k : BitVec 4)
    (a : Address) (l : Nat) : accept o k a l s' = (accept o k a l s).withKept s' := by
  cases hcheck : check s.cfg o k l with
  | none =>
    rw [accept_of_check_none hcheck, accept_of_check_none (hc ▸ hcheck)]
    exact afterAccept_eq_withKept hc hr o k a l _ _
  | some c =>
    rw [accept_of_check_some hcheck, accept_of_check_some (hc ▸ hcheck)]
    exact afterAccept_eq_withKept hc hr o k a l _ _

end

/-! ## Progress or waiting -/

section
variable {s : State}

/-- Where something keeps the block waiting, its step changes nothing (R219, R223). -/
theorem Inv.blockStep_of_hindered (h : Inv s) (hu : ¬ Unhindered s) : blockStep s = .next s := by
  cases hr : inRe s with
  | true => exact blockStep_of_inRe hr
  | false =>
    cases hd : s.draining with
    | true => exact blockStep_of_draining (h.drainIn hd).1 hd
    | false =>
      obtain ⟨hp, h0, hs⟩ : s.phase = .asm ∧ s.remaining = 0 ∧ s.sent ≠ s.out.length := by
        by_contra hexit
        exact hu ⟨hr, hd, by tauto⟩
      exact blockStep_of_asm_wait hp h0 hs

/-- A move answers the same state, or one with exactly one move fewer left (R223). -/
def ProgressOrWaits (s : State) (o : Host.Outcome State Fault Refusal) : Prop :=
  ∃ t, o = .next t ∧ (t = s ∨ workLeft t + 1 = workLeft s)

theorem blockStep_progressOrWaits (h : Inv s) (hx : TextInv s) (hb : s.busy = true) : ProgressOrWaits s (blockStep s) := by
  by_cases hu : Unhindered s
  · obtain ⟨t, ht, hw⟩ := blockStep_progress h hx hb hu
    exact ⟨t, ht, .inr hw⟩
  · exact ⟨s, h.blockStep_of_hindered hu, .inl rfl⟩

theorem takeChar_progressOrWaits (h : Inv s) (hx : TextInv s) (hb : s.busy = true) : ProgressOrWaits s (takeChar s) := by
  rcases takeChar_cases s with ⟨hlt, ht⟩ | ⟨-, ht⟩
  · exact ⟨_, ht, .inr (workLeft_takeChar h hx hb hlt ht)⟩
  · exact ⟨s, ht, .inl rfl⟩

theorem supplyByte_progressOrWaits (h : Inv s) : ProgressOrWaits s (supplyByte s) := by
  cases hr : inRe s with
  | true => exact ⟨_, h.supplyByte_of_inRe hr, .inr (workLeft_stage hr _)⟩
  | false => exact ⟨s, supplyByte_of_not_inRe hr, .inl rfl⟩

end

end Sys2Proof.Machine

/-! ## The statements about reset and hazards -/

namespace Sys2Proof

open Machine

/-- Settles O55: the measure counts the block steps, reads and transfers that are left, and each move makes one of them where
nothing keeps it waiting. -/
theorem everyMoveIsProgressOrWaiting : Obligations.EveryMoveIsProgressOrWaiting := by
  intro s h hx hb
  have hseen (o) : afterReset s o = o := afterReset_of_seen h.reset o
  refine ⟨?_, promptMove_progress h hx hb⟩
  rintro m (rfl | rfl | rfl) <;> rw [perform, hseen]
  · exact blockStep_progressOrWaits h hx hb
  · exact takeChar_progressOrWaits h hx hb
  · exact supplyByte_progressOrWaits h

/-- Settles O22: the accept step writes every field but the parameters and those named, and its checks see no other. -/
theorem acceptForgetsTheEarlierOperation : Obligations.AcceptForgetsTheEarlierOperation := by
  intro i s s' h h' hc hw
  rw [wf_eq_lenFits, lenFits_iff] at hw
  refine ⟨_, exec_of_ready h hw, ?_⟩
  rw [exec_of_ready h' (hc ▸ hw), accept_eq_withKept hc (h'.1.trans h.1.symm)]
  rfl

/-- Settles O41, one lemma a wait. -/
theorem waitingChangesNothing : Obligations.WaitingChangesNothing := by
  intro s hr
  have hperform : perform .blockStep s = blockStep s := afterReset_of_seen hr _
  rw [hperform]
  exact ⟨blockStep_of_inRe, blockStep_of_draining, blockStep_of_asm_wait, blockStep_of_not_busy⟩

/-- Settles O9, by the move: a command by its own guard, every other move but `Reset` by the one they share. -/
theorem nothingMovesBeforeTheFirstReset : Obligations.NothingMovesBeforeTheFirstReset := by
  refine ⟨fun i s h => exec_of_not_seen h i, fun m s h hm => ?_, fun p s => ⟨s.resetBlock, rfl, rfl⟩⟩
  cases m with
  | start c => exact exec_of_not_seen h (decodeCommand c)
  | rst p => exact absurd rfl (hm p)
  | blockStep | take | supply | readStatus | setInput => exact afterReset_of_not_seen h _

end Sys2Proof
